-- ==== Sys2Proof/Word.lean ====
section
/-! DEFINITION. The words of APS-CORE (00_scope.md R8, R10): names for the widths the spec fixes, and the four
kinds of encoded word (30_encoding.md R39, R40, R42, R43). -/

namespace Sys2Proof

/-- One byte on the SPI wire (30_encoding.md R39, R40). -/
abbrev Byte := BitVec 8

/-- A 12-bit device value, 0..4095 (R7 `CODE_W`). -/
abbrev Code := BitVec 12

/-- An encoder position, two's complement (R8 `POS_W`). -/
abbrev Pos := BitVec 16

/-- A calibration target in millivolts, two's complement (R8 `TGT_W`). -/
abbrev Target := BitVec 16

/-- A calibrated ADC result in millivolts, unsigned (R8 `MV_W`). -/
abbrev Millivolts := BitVec 14

/-- A HOST command word (R43). -/
abbrev CmdWord := BitVec 24

/-- The response word: the flag, then 16 bits of data (R44). -/
abbrev RspWord := BitVec 17

/-- The tick sample vector `btn_n, enc_a[0], enc_b[0], enc_a[1], enc_b[1]`, high bit first (R42). -/
abbrev TickVec := BitVec 5

/-- Encoder index: 0 voltage-set, 1 current-set (R9). -/
abbrev EncIdx := BitVec 1

/-- DAC channel (R61). -/
abbrev DacChan := BitVec 1

/-- ADC channel (R70). -/
abbrev AdcChan := BitVec 2

/-- An encoded word together with the lines that carry it: what a word means depends on where it stands, since
a receiver tells the formats apart by the chip select and not by any bit (30_encoding.md R52). -/
inductive RawWord
  /-- Format TICKV, sampled at a tick strobe (R42). -/
  | tickv (v : TickVec)
  /-- Format CMD, on the command port (R43). -/
  | cmd (w : CmdWord)
  /-- Format DACF, Byte0 then Byte1, under `cs_dac_n` = 0 (R39). -/
  | dacf (f : BitVec 16)
  /-- Format ADCF, Byte0, Byte1, Byte2, under `cs_adc_n` = 0 (R40). -/
  | adcf (q : BitVec 24)
  deriving DecidableEq, Repr

end Sys2Proof
end

