-- ==== Sys2Proof/Syntax.lean ====
section
/-! DEFINITION. The operation set of APS-CORE: one constructor per row of Table 30-1 (30_encoding.md R48). The
operand types are exactly the spec's widths (R42, R47), so every term is an instruction the encodings admit. -/

namespace Sys2Proof

/-- The thirteen entries of the operation map (R48). TICK is started by the `tick` strobe, the ten commands by the
HOST, and the two frames are the words DACWR and ADCRD put on the wire. -/
inductive Instr
  /-- TICK: the five pin levels sampled at the strobe, in the order of R42 (true = HIGH = 1). -/
  | tick (btnN a0 b0 a1 b1 : Bool)
  /-- RDENC `i` (R83). -/
  | rdenc (i : EncIdx)
  /-- RDBTN (R84). -/
  | rdbtn
  /-- CALDAC0 `t` (R67). -/
  | caldac0 (t : Target)
  /-- CALDAC1 `t` (R68). -/
  | caldac1 (t : Target)
  /-- CALADC0 `raw` (R75). -/
  | caladc0 (raw : Code)
  /-- CALADC1 `raw` (R76). -/
  | caladc1 (raw : Code)
  /-- CALADC2 `raw` (R75). -/
  | caladc2 (raw : Code)
  /-- CALADC3 `raw` (R75). -/
  | caladc3 (raw : Code)
  /-- DACWR `c, g, e, v`: channel, gainEnable, channelEnable, value (R64). -/
  | dacwr (c : DacChan) (g e : Bool) (v : Code)
  /-- ADCRD `ch` (R74). -/
  | adcrd (ch : AdcChan)
  /-- DAC.FRAME: channel, gainEnable (not its inverse), channelEnable, value (R62). -/
  | dacFrame (c : DacChan) (g e : Bool) (v : Code)
  /-- ADC.FRAME: channel (R71). -/
  | adcFrame (ch : AdcChan)
  deriving DecidableEq, Repr

end Sys2Proof
end

