-- ==== Sys2Proof/WellFormed.lean ====
section
/-! DEFINITION. Well-formedness. A term of `Instr` is well formed by its operand types. What can be ill formed is a
line of the text form of 30_encoding.md R53, whose operands are written numbers; the checks stand here, one per kind
of operand, and Decode.lean assembles exactly the lines that pass. -/

namespace Sys2Proof

/-- One line of the text form (R53), with operands as the numbers written. -/
inductive AsmLine
  /-- `TICK n a0 b0 a1 b1`, five literal bits. -/
  | tick (n a0 b0 a1 b1 : Nat)
  /-- `RDENC i`. -/
  | rdenc (i : Nat)
  /-- `RDBTN`. -/
  | rdbtn
  /-- `CALDAC ch, t`, `t` decimal and signed. -/
  | caldac (ch : Nat) (t : Int)
  /-- `CALADC ch, raw`. -/
  | caladc (ch raw : Nat)
  /-- `DACWR ch, g, e, v`. -/
  | dacwr (ch g e v : Nat)
  /-- `ADCRD ch`. -/
  | adcrd (ch : Nat)
  deriving DecidableEq, Repr

/-- A literal bit (R42, R53). -/
def wfBit (b : Nat) : Bool := b < 2

/-- An encoder index (R47). -/
def wfEncIdx (i : Nat) : Bool := i < 2

/-- A DAC channel (R61). -/
def wfDacChan (c : Nat) : Bool := c < 2

/-- An ADC channel (R70). -/
def wfAdcChan (c : Nat) : Bool := c < 4

/-- A 12-bit code (R47). -/
def wfCode (v : Nat) : Bool := v < 4096

/-- A signed 16-bit target (R47, R65). -/
def wfTarget (t : Int) : Bool := -32768 ≤ t && t ≤ 32767

/-- Every operand of the line lies in its range (R47, R53, R61, R70). -/
def AsmLine.wellFormed : AsmLine → Bool
  | .tick n a0 b0 a1 b1 => wfBit n && wfBit a0 && wfBit b0 && wfBit a1 && wfBit b1
  | .rdenc i => wfEncIdx i
  | .rdbtn => true
  | .caldac ch t => wfDacChan ch && wfTarget t
  | .caladc ch raw => wfAdcChan ch && wfCode raw
  | .dacwr ch g e v => wfDacChan ch && wfBit g && wfBit e && wfCode v
  | .adcrd ch => wfAdcChan ch

end Sys2Proof
end

