-- ==== Sys2Proof/Decode.lean ====
section
/-! DEFINITION. Decoding of the six formats' words into instructions (30_encoding.md R39 to R43, R48 to R51), total
and rejecting by name, then the encoder written from Table 30-1, then the text form of R53. -/

namespace Sys2Proof

/-- Why a word is no entry of the operation map. -/
inductive DecodeError
  /-- `cmd[23:20]` is none of 0x1 .. 0x6 (R51). -/
  | unassignedOp
  /-- An assigned `op` with a must-be-zero bit of `arg` set (R51). -/
  | mustBeZeroSet
  /-- DAC Byte0 bit 6 is 1: the block never sends it (R49). -/
  | dacBit6Set
  /-- Not one of the four queries the block sends (R50, R71). -/
  | notAnAdcQuery
  deriving DecidableEq, Repr

/-- What decoding answers. -/
inductive Decoded
  | ok (i : Instr)
  | rejected (e : DecodeError)
  deriving DecidableEq, Repr

/-- TICKV: all 32 values are legal (R42). -/
def decodeTick (v : TickVec) : Instr :=
  .tick (v.getLsbD 4) (v.getLsbD 3) (v.getLsbD 2) (v.getLsbD 1) (v.getLsbD 0)

/-- `op` 0x1 (Table 30-1). -/
def decodeRdenc (w : CmdWord) : Decoded :=
  if w.extractLsb' 1 19 = 0 then .ok (.rdenc (w.extractLsb' 0 1)) else .rejected .mustBeZeroSet

/-- `op` 0x2 (Table 30-1). -/
def decodeRdbtn (w : CmdWord) : Decoded :=
  if w.extractLsb' 0 20 = 0 then .ok .rdbtn else .rejected .mustBeZeroSet

/-- `op` 0x3, `cmd[16]` choosing the channel (Table 30-1). -/
def decodeCaldac (w : CmdWord) : Decoded :=
  if w.extractLsb' 17 3 = 0 then
    if w.getLsbD 16 then .ok (.caldac1 (w.extractLsb' 0 16)) else .ok (.caldac0 (w.extractLsb' 0 16))
  else .rejected .mustBeZeroSet

/-- `op` 0x4, `cmd[13:12]` choosing the channel (Table 30-1). -/
def decodeCaladc (w : CmdWord) : Decoded :=
  if w.extractLsb' 14 6 = 0 then
    if w.getLsbD 13 then
      if w.getLsbD 12 then .ok (.caladc3 (w.extractLsb' 0 12)) else .ok (.caladc2 (w.extractLsb' 0 12))
    else
      if w.getLsbD 12 then .ok (.caladc1 (w.extractLsb' 0 12)) else .ok (.caladc0 (w.extractLsb' 0 12))
  else .rejected .mustBeZeroSet

/-- `op` 0x5 (Table 30-1); `cmd[14]` and `cmd[19:16]` must be 0. -/
def decodeDacwr (w : CmdWord) : Decoded :=
  if w.extractLsb' 16 4 = 0 ∧ w.getLsbD 14 = false then
    .ok (.dacwr (w.extractLsb' 15 1) (w.getLsbD 13) (w.getLsbD 12) (w.extractLsb' 0 12))
  else .rejected .mustBeZeroSet

/-- `op` 0x6 (Table 30-1). -/
def decodeAdcrd (w : CmdWord) : Decoded :=
  if w.extractLsb' 2 18 = 0 then .ok (.adcrd (w.extractLsb' 0 2)) else .rejected .mustBeZeroSet

/-- A word on the command port (R43, R48, R51). -/
def decodeCmd (w : CmdWord) : Decoded :=
  if w.extractLsb' 20 4 = 0x1#4 then decodeRdenc w
  else if w.extractLsb' 20 4 = 0x2#4 then decodeRdbtn w
  else if w.extractLsb' 20 4 = 0x3#4 then decodeCaldac w
  else if w.extractLsb' 20 4 = 0x4#4 then decodeCaladc w
  else if w.extractLsb' 20 4 = 0x5#4 then decodeDacwr w
  else if w.extractLsb' 20 4 = 0x6#4 then decodeAdcrd w
  else .rejected .unassignedOp

/-- A DAC frame `Byte0, Byte1` as the block sends it: bit 14 is 0, and bit 13 is NOT gainEnable (R39, R49; log
entry 11). -/
def decodeDacWire (f : BitVec 16) : Decoded :=
  if f.getLsbD 14 then .rejected .dacBit6Set
  else .ok (.dacFrame (f.extractLsb' 15 1) (!f.getLsbD 13) (f.getLsbD 12) (f.extractLsb' 0 12))

/-- An ADC query `Byte0, Byte1, Byte2` (R40, R50). -/
def decodeAdcWire (q : BitVec 24) : Decoded :=
  if q.extractLsb' 16 8 = 0x06#8 ∧ q.extractLsb' 0 14 = 0 then .ok (.adcFrame (q.extractLsb' 14 2))
  else .rejected .notAnAdcQuery

/-- The decoder: the lines that carry a word select its format (R52). -/
def decode : RawWord → Decoded
  | .tickv v => .ok (decodeTick v)
  | .cmd w => decodeCmd w
  | .dacf f => decodeDacWire f
  | .adcf q => decodeAdcWire q

/-- The encoder: Table 30-1 row by row, fields joined with the high bits first. -/
def encode : Instr → RawWord
  | .tick n a0 b0 a1 b1 => .tickv
      (BitVec.ofBool n ++ BitVec.ofBool a0 ++ BitVec.ofBool b0 ++ BitVec.ofBool a1 ++ BitVec.ofBool b1)
  | .rdenc i => .cmd (0x1#4 ++ 0#19 ++ i)
  | .rdbtn => .cmd (0x2#4 ++ 0#20)
  | .caldac0 t => .cmd (0x3#4 ++ 0#3 ++ 0#1 ++ t)
  | .caldac1 t => .cmd (0x3#4 ++ 0#3 ++ 1#1 ++ t)
  | .caladc0 raw => .cmd (0x4#4 ++ 0#6 ++ 0#2 ++ raw)
  | .caladc1 raw => .cmd (0x4#4 ++ 0#6 ++ 1#2 ++ raw)
  | .caladc2 raw => .cmd (0x4#4 ++ 0#6 ++ 2#2 ++ raw)
  | .caladc3 raw => .cmd (0x4#4 ++ 0#6 ++ 3#2 ++ raw)
  | .dacwr c g e v => .cmd (0x5#4 ++ 0#4 ++ c ++ 0#1 ++ BitVec.ofBool g ++ BitVec.ofBool e ++ v)
  | .adcrd ch => .cmd (0x6#4 ++ 0#18 ++ ch)
  | .dacFrame c g e v => .dacf (c ++ 0#1 ++ BitVec.ofBool (!g) ++ BitVec.ofBool e ++ v)
  | .adcFrame ch => .adcf (0x06#8 ++ ch ++ 0#6 ++ 0x00#8)

/-- One row of spec/opcode_table.json: `word` belongs to the row when `word AND mask = match`. -/
structure OpRow where
  mask : Nat
  pattern : Nat
  deriving DecidableEq, Repr

/-- The row of each instruction in spec/opcode_table.json, mask and match as the table has them. -/
def opRow : Instr → OpRow
  | .tick .. => ⟨0x00, 0x00⟩
  | .rdenc .. => ⟨0xFFFFFE, 0x100000⟩
  | .rdbtn => ⟨0xFFFFFF, 0x200000⟩
  | .caldac0 .. => ⟨0xFF0000, 0x300000⟩
  | .caldac1 .. => ⟨0xFF0000, 0x310000⟩
  | .caladc0 .. => ⟨0xFFF000, 0x400000⟩
  | .caladc1 .. => ⟨0xFFF000, 0x401000⟩
  | .caladc2 .. => ⟨0xFFF000, 0x402000⟩
  | .caladc3 .. => ⟨0xFFF000, 0x403000⟩
  | .dacwr .. => ⟨0xFF4000, 0x500000⟩
  | .adcrd .. => ⟨0xFFFFFC, 0x600000⟩
  | .dacFrame .. => ⟨0x4000, 0x0000⟩
  | .adcFrame .. => ⟨0xFF3FFF, 0x060000⟩

/-- The rows of format CMD, in the table's order. -/
def cmdRows : List OpRow :=
  [⟨0xFFFFFE, 0x100000⟩, ⟨0xFFFFFF, 0x200000⟩, ⟨0xFF0000, 0x300000⟩, ⟨0xFF0000, 0x310000⟩, ⟨0xFFF000, 0x400000⟩,
   ⟨0xFFF000, 0x401000⟩, ⟨0xFFF000, 0x402000⟩, ⟨0xFFF000, 0x403000⟩, ⟨0xFF4000, 0x500000⟩, ⟨0xFFFFFC, 0x600000⟩]

/-- The word of a row: 8 bits for TICKV (its five bits in a whole byte), 16 for a DAC frame, 24 for a command or an
ADC query. A 24-bit word of the shape of an ADC query is the wire word; on the command port the same bits are a
reserved command (log entry 10). -/
def tableWord (nbits w : Nat) : Option RawWord :=
  if nbits = 8 then (if w < 32 then some (.tickv (BitVec.ofNat 5 w)) else none)
  else if nbits = 16 then (if w < 2 ^ 16 then some (.dacf (BitVec.ofNat 16 w)) else none)
  else if nbits = 24 then
    if w < 2 ^ 24 then
      if w &&& 0xFF3FFF = 0x060000 then some (.adcf (BitVec.ofNat 24 w)) else some (.cmd (BitVec.ofNat 24 w))
    else none
  else none

/-- The instruction this decoder reads from a word of the table, its bits numbered as the table numbers them. -/
def decodeTableWord (nbits w : Nat) : Option Instr :=
  match tableWord nbits w with
  | none => none
  | some r =>
    match decode r with
    | .ok i => some i
    | .rejected _ => none

/-- A literal bit as a level. -/
def asmBit (b : Nat) : Bool := b == 1

/-- The instruction a text line stands for, operands placed without a check (R53). -/
def AsmLine.place : AsmLine → Instr
  | .tick n a0 b0 a1 b1 => .tick (asmBit n) (asmBit a0) (asmBit b0) (asmBit a1) (asmBit b1)
  | .rdenc i => .rdenc (BitVec.ofNat 1 i)
  | .rdbtn => .rdbtn
  | .caldac 0 t => .caldac0 (BitVec.ofInt 16 t)
  | .caldac _ t => .caldac1 (BitVec.ofInt 16 t)
  | .caladc 0 raw => .caladc0 (BitVec.ofNat 12 raw)
  | .caladc 1 raw => .caladc1 (BitVec.ofNat 12 raw)
  | .caladc 2 raw => .caladc2 (BitVec.ofNat 12 raw)
  | .caladc _ raw => .caladc3 (BitVec.ofNat 12 raw)
  | .dacwr ch g e v => .dacwr (BitVec.ofNat 1 ch) (asmBit g) (asmBit e) (BitVec.ofNat 12 v)
  | .adcrd ch => .adcrd (BitVec.ofNat 2 ch)

/-- Assemble one text line: only a well-formed one has an instruction (R53). -/
def assemble (l : AsmLine) : Option Instr := if l.wellFormed then some l.place else none

/-- The text line of an instruction; the two wire frames have none (R53). -/
def disassemble : Instr → Option AsmLine
  | .tick n a0 b0 a1 b1 => some (.tick n.toNat a0.toNat b0.toNat a1.toNat b1.toNat)
  | .rdenc i => some (.rdenc i.toNat)
  | .rdbtn => some .rdbtn
  | .caldac0 t => some (.caldac 0 t.toInt)
  | .caldac1 t => some (.caldac 1 t.toInt)
  | .caladc0 raw => some (.caladc 0 raw.toNat)
  | .caladc1 raw => some (.caladc 1 raw.toNat)
  | .caladc2 raw => some (.caladc 2 raw.toNat)
  | .caladc3 raw => some (.caladc 3 raw.toNat)
  | .dacwr c g e v => some (.dacwr c.toNat g.toNat e.toNat v.toNat)
  | .adcrd ch => some (.adcrd ch.toNat)
  | .dacFrame .. => none
  | .adcFrame .. => none

end Sys2Proof
end

