-- ==== Sys2Proof/Config.lean ====
section
/-! DEFINITION. Parameters of APS-CORE (00_scope.md R7, R8; 93_implementation_defined.md U1, U2, U16) as named
constants, and the values the spec leaves open as constants without a body. -/

namespace Sys2Proof.Config

/-- `TICK_PERIOD` in milliseconds (R7); no state rule depends on it (R105). -/
def tickPeriodMs : Nat := 5

/-- `DEBOUNCE_THRESHOLD`: a release toggles only if the count is strictly greater (R7). -/
def debounceThreshold : Nat := 3

/-- `SPI_DIV`: system clocks in one SPI clock (R7). -/
def spiDiv : Nat := 4

/-- The largest 12-bit code (R7 `CODE_W`, R66). -/
def codeMax : Int := 4095

/-- `K0_OFFSET` (R7). -/
def k0Offset : Int := 4530

/-- `K0_SLOPE` = 0.437 as the rational 437/1000 (R65, U1): numerator. -/
def k0SlopeNum : Int := 437

/-- `K0_SLOPE` = 0.437 as the rational 437/1000 (R65, U1): denominator. -/
def k0SlopeDen : Int := 1000

/-- `K1_REF` in millivolts (R7). -/
def k1Ref : Int := 1250

/-- `K1_GAIN` = 2.21 as 221/100 (R65, U1): numerator. -/
def k1GainNum : Int := 221

/-- `K1_GAIN` = 2.21 as 221/100 (R65, U1): denominator. -/
def k1GainDen : Int := 100

/-- `KA1_SCALE` = 2.65 as 265/100 (R65, U1): numerator. -/
def ka1ScaleNum : Int := 265

/-- `KA1_SCALE` = 2.65 as 265/100 (R65, U1): denominator. -/
def ka1ScaleDen : Int := 100

/-- `LASTA_RST` = LOW (R8, R24). -/
def lastAReset : Bool := false

/-- `GATE_REG` = yes: `reg_en` follows the enable state (R8, R79; parameter by U2, log entry 15). -/
def gateReg : Bool := true

/-- `GATE_DAC` = yes: DACWR forces the channel-enable bit to 0 while DISABLED (R8, R80; parameter by U2, log
entry 15). -/
def gateDac : Bool := true

/-- `F_SYS`, the system clock frequency: open (R8, D24); no state rule depends on it. -/
opaque fSysHz : Nat

/-- `T_CSS`, chip-select setup in system clocks: open (R32, D24). -/
opaque tCss : Nat

/-- `T_CSH`, chip-select hold in system clocks: open (R32, D24). -/
opaque tCsh : Nat

/-- `T_IBG`, gap between bytes in system clocks: open (R32, D24). -/
opaque tIbg : Nat

/-- Free value: the level of `spi_mosi` in the n-th margin clock of transfer number x, where R32 states none. The
number x lets it depend on the transfer, its device and its bytes (log entry 13). -/
opaque mosiMargin : Nat → Nat → Bool

/-- Free value: the level of `spi_miso` at the n-th rising edge at which the block samples it, when the environment's
list is exhausted (R73, D31; log entry 5). -/
opaque misoBit : Nat → Bool

end Sys2Proof.Config
end

