-- ==== Sys2Proof/Machine/State.lean ====
section
/-! DEFINITION. The state of APS-CORE (10_state.md R13 to R24): the Shared Control State, the hidden state of an SPI
transfer, the response, the event history, and the model's own fields that stand for the environment's inputs. -/

namespace Sys2Proof.Machine

/-- EncoderState, one per encoder (R14). -/
structure Encoder where
  /-- Position, 16 bits two's complement, wrapping (R14). -/
  pos : Pos
  /-- Level of phase A at the previous tick, true = HIGH (R14). -/
  lastA : Bool
  /-- At least one counted edge since the HOST last read and cleared (R14). -/
  changed : Bool
  deriving DecidableEq, Repr

/-- ButtonState (R15). -/
structure Button where
  /-- The depressed count, saturating at 255 (R15). -/
  cnt : BitVec 8
  /-- The output enable: the state of the Output Enable Controller (R16). -/
  enabled : Bool
  /-- `enabled` was toggled at least once since the HOST last read and cleared (R15). -/
  changed : Bool
  deriving DecidableEq, Repr

/-- Which byte of which frame is on the wire (R20). -/
inductive Seq
  | idle | dacB0 | dacB1 | adcB0 | adcB1 | adcB2
  deriving DecidableEq, Repr

/-- The two devices on the SPI bus (R26). -/
inductive Dev
  | dac | adc
  deriving DecidableEq, Repr

/-- The bytes of `txbuf` or `rxbuf`; a DAC frame has two bytes and leaves `b2` alone (R20). -/
structure ByteBuf where
  b0 : Byte
  b1 : Byte
  b2 : Byte
  deriving DecidableEq, Repr

/-- An event of the history `spi_log` (R22). -/
inductive SpiEvent
  /-- The two bytes DACWR sent. -/
  | dacFrame (b0 b1 : Byte)
  /-- The three bytes ADCRD sent and the three it received. -/
  | adcXfer (t0 t1 t2 r0 r1 r2 : Byte)
  deriving DecidableEq, Repr

/-- What the input ports of R9 show in one clock in which something may arrive. -/
structure Clock where
  /-- `rst` (R9, R95). -/
  rst : Bool
  /-- The `tick` strobe with the five pin levels sampled at it (R42). -/
  tick : Option TickVec
  /-- `cmd_valid` with `cmd[23:0]` (R43, R82). -/
  cmd : Option CmdWord
  deriving DecidableEq, Repr

/-- A clock in which nothing arrives. -/
def Clock.quiet : Clock := ⟨false, none, none⟩

/-- The whole state. -/
structure State where
  /-- Encoder 0, voltage-set (R9, R14). -/
  enc0 : Encoder
  /-- Encoder 1, current-set (R9, R14). -/
  enc1 : Encoder
  /-- The button (R15). -/
  btn : Button
  /-- The SPI byte sequencer (R20). -/
  seq : Seq
  /-- The bytes to send, latched at acceptance (R20). -/
  txbuf : ByteBuf
  /-- The bytes received so far (R20). -/
  rxbuf : ByteBuf
  /-- `rsp_valid` and `rsp[16:0]`: `none` is `rsp_valid` = 0 (R9, R44; log entry 4). -/
  rsp : Option RspWord
  /-- The event history `spi_log`, oldest first (R22). -/
  spiLog : List SpiEvent
  /-- MODEL: the clocks still to come, the next one first (log entry 2). -/
  clocks : List Clock
  /-- MODEL: the levels of `spi_miso` at the next rising edges of `spi_sclk` at which the block samples it, the next
  one first (R32, R73; log entry 5). -/
  miso : List Bool
  /-- MODEL: how many levels have been sampled, the index of the free value (R73; log entry 5). -/
  misoDrawn : Nat
  deriving DecidableEq, Repr

/-- Why the machine stops with a fault: never. "No fault is ever escalated to a halt state" (60_exceptions.md R86),
so the type has no constructor. -/
inductive Fault
  deriving DecidableEq, Repr

/-- Why a step has no meaning. -/
inductive Refusal
  /-- Raised only by an arm of `exec` whose instruction has no meaning yet; no arm is such a one now. Safe: the
  model stops where the hardware goes on. -/
  | notModelled (mnemonic : String)
  deriving DecidableEq, Repr

/-- An encoder after reset (R24). -/
def Encoder.reset : Encoder := ⟨0, Config.lastAReset, false⟩

/-- The button after reset: DISABLED, nothing counted (R24). -/
def Button.reset : Button := ⟨0, false, false⟩

/-- The machine right after reset (R24, R95). `txbuf` and `rxbuf` are unspecified there and never read before they
are written: zero is the model's choice (log entry 6); so are the model's own three fields (log entries 2, 5). -/
def State.reset : State where
  enc0 := Encoder.reset
  enc1 := Encoder.reset
  btn := Button.reset
  seq := .idle
  txbuf := ⟨0, 0, 0⟩
  rxbuf := ⟨0, 0, 0⟩
  rsp := none
  spiLog := []
  clocks := []
  miso := []
  misoDrawn := 0

end Sys2Proof.Machine
end

