-- ==== Sys2Proof/Machine/Flags.lean ====
section
/-! DEFINITION. The block's only flags, the three sticky `changed` bits (10_state.md R18), and the accessors of the
named state elements (R13). No arithmetic operation writes a flag. -/

namespace Sys2Proof.Machine

/-- Encoder `i` (R13). -/
def State.enc (s : State) (i : EncIdx) : Encoder := if i = 0 then s.enc0 else s.enc1

/-- Replace encoder `i` (R13). -/
def State.setEnc (s : State) (i : EncIdx) (e : Encoder) : State :=
  if i = 0 then { s with enc0 := e } else { s with enc1 := e }

/-- A counted edge sets the flag (R18). -/
def Encoder.raiseChanged (e : Encoder) : Encoder := { e with changed := true }

/-- A toggle sets the flag (R18). -/
def Button.raiseChanged (b : Button) : Button := { b with changed := true }

/-- RDENC `i` clears `enc[i].changed` and nothing else (R18, R83). -/
def State.clearEncChanged (s : State) (i : EncIdx) : State := s.setEnc i { s.enc i with changed := false }

/-- RDBTN clears `btn.changed` and nothing else (R18, R84). -/
def State.clearBtnChanged (s : State) : State := { s with btn := { s.btn with changed := false } }

end Sys2Proof.Machine
end

