-- ==== Sys2Proof/Machine/Operands.lean ====
section
/-! DEFINITION. Arithmetic of the pseudocode (00_scope.md R10), operand assembly (30_encoding.md R44 to R47), the
frame encoders and decoders (41_dac.md R62, R63; 42_adc.md R71, R72) and the calibration functions (41_dac.md R65 to
R68; 42_adc.md R75, R76). -/

namespace Sys2Proof.Machine

/-- `wrap_16`, as the word that holds the wrapped value (R10). -/
def wrap16 (z : Int) : Pos := BitVec.ofInt 16 z

/-- `sat_inc_8` (R10). -/
def satInc8 (u : BitVec 8) : BitVec 8 := if u.toNat < 255 then BitVec.ofNat 8 (u.toNat + 1) else 255#8

/-- `tdiv`: the quotient truncated toward zero (R10). -/
def tdiv (a b : Int) : Int := Int.tdiv a b

/-- `clamp` (R10). -/
def clamp (z lo hi : Int) : Int := if z < lo then lo else if hi < z then hi else z

/-- The response word: flag, then data (R11, R44). -/
def rspWord (flag : Bool) (data : BitVec 16) : RspWord := BitVec.ofBool flag ++ data

/-- EncDac: Byte0 then Byte1 (R62). -/
def encDac (c : DacChan) (g e : Bool) (v : Code) : Byte × Byte :=
  (c ++ 0#1 ++ BitVec.ofBool (!g) ++ BitVec.ofBool e ++ v.extractLsb' 8 4, v.extractLsb' 0 8)

/-- The four fields of a DAC frame (R61). -/
structure DacFields where
  c : DacChan
  g : Bool
  e : Bool
  v : Code
  deriving DecidableEq, Repr

/-- DecDac: how the DAC reads a frame; bit 6 of Byte0 is ignored (R63). -/
def decDac (b0 b1 : Byte) : DacFields :=
  ⟨b0.extractLsb' 7 1, !b0.getLsbD 5, b0.getLsbD 4, b0.extractLsb' 0 4 ++ b1⟩

/-- EncAdc: the three query bytes (R71). -/
def encAdc (ch : AdcChan) : ByteBuf := ⟨0x06#8, ch ++ 0#6, 0x00#8⟩

/-- DecAdc: the 12-bit sample in the received bytes, by the spec's own expression; Byte `r0` and the upper four bits
of `r1` are ignored (R72). -/
def decAdc (r : ByteBuf) : Code :=
  ((((r.b1.setWidth 16 &&& 0xFF#16) <<< 8) ||| r.b2.setWidth 16) &&& 0x0FFF#16).setWidth 12

/-- The bits of a byte in the order they stand on the wire: bit 7 first (R27). -/
def bitsMsbFirst (b : Byte) : List Bool :=
  [b.getLsbD 7, b.getLsbD 6, b.getLsbD 5, b.getLsbD 4, b.getLsbD 3, b.getLsbD 2, b.getLsbD 1, b.getLsbD 0]

/-- Shift one received bit in: the first bit ends highest (R27, R32). -/
def shiftIn (acc : Byte) (b : Bool) : Byte := (acc <<< 1) ||| (BitVec.ofBool b).setWidth 8

/-- The byte a receiver assembles from eight sampled bits, the first one bit 7 (R27, R32). -/
def byteOfBits (bits : List Bool) : Byte := bits.foldl shiftIn 0

/-- The bytes a receiver assembles from the bits it samples, eight to a byte (R27, R32). -/
def bytesOfBits : List Bool → List Byte
  | b7 :: b6 :: b5 :: b4 :: b3 :: b2 :: b1 :: b0 :: rest => byteOfBits [b7, b6, b5, b4, b3, b2, b1, b0] :: bytesOfBits rest
  | _ => []

/-- The output-enable gate of DACWR, with the parameter GATE_DAC as an argument (R80, U2). -/
def gateEnable (gate e enabled : Bool) : Bool := if gate then e && enabled else e

/-- `q` of CALDAC0, the source's unclamped `calculateDAC1Output` (R67). -/
def dac0Unclamped (t : Target) : Int :=
  tdiv (Config.k0Offset * Config.k0SlopeDen - Config.k0SlopeNum * t.toInt) Config.k0SlopeDen

/-- `q` of CALDAC1, the source's unclamped `calculateDAC2Output` (R68). -/
def dac1Unclamped (t : Target) : Int :=
  tdiv ((t.toInt - Config.k1Ref) * Config.k1GainDen) Config.k1GainNum

/-- The clamp of every CALDAC result (R66). -/
def clampCode (q : Int) : Code := BitVec.ofInt 12 (clamp q 0 Config.codeMax)

/-- CALDAC0's code (R67). -/
def dac0Code (t : Target) : Code := clampCode (dac0Unclamped t)

/-- CALDAC1's code (R68). -/
def dac1Code (t : Target) : Code := clampCode (dac1Unclamped t)

/-- CALADC for channels 0, 2 and 3: 1 code = 1 mV (R75). -/
def adcPinMv (raw : Code) : Millivolts := raw.setWidth 14

/-- CALADC1: undo the divider of channel 1 (R76). -/
def adcTerminalMv (raw : Code) : Millivolts :=
  BitVec.ofInt 14 (tdiv ((raw.toNat : Int) * Config.ka1ScaleNum) Config.ka1ScaleDen)

/-- The DAC's view of channel `c`: the last frame for it in the history, decoded as the DAC would; `none` before any
such frame, where the view is undefined (R22, U6). -/
def dacView (log : List SpiEvent) (c : DacChan) : Option DacFields :=
  log.foldl (fun view ev =>
    match ev with
    | .dacFrame b0 b1 => if (decDac b0 b1).c = c then some (decDac b0 b1) else view
    | .adcXfer .. => view) none

end Sys2Proof.Machine
end

