-- ==== Sys2Proof/Machine/Ops.lean ====
section
/-! DEFINITION. The operations shared by the meanings and the step: the response (00_scope.md R11), the SPI transfer
primitive (20_memory.md R31) as the walk of the byte sequencer (10_state.md R20), the input ports (R9) and reset
(70_reset_and_hazards.md R95). The block has no memory (R25) and takes no exception: nothing is saved, no mode
changes, no vector is fetched and there is no return (60_exceptions.md R86, R90), so there is no such operation. -/

namespace Sys2Proof.Machine

/-- Every meaning ends here: the outcome of an operation that completes (R86). -/
def done (s : State) : Host.Outcome State Fault Refusal := .next s

/-- Continue after an outcome that is a next state. -/
def afterNext (f : State → State) : Host.Outcome State Fault Refusal → Host.Outcome State Fault Refusal
  | .next s => .next (f s)
  | .fault r => .fault r
  | .refused r => .refused r

/-- `respond(flag, data)` (R11, R44). -/
def respond (flag : Bool) (data : BitVec 16) (s : State) : State := { s with rsp := some (rspWord flag data) }

/-- The level of `spi_miso` at the `j`-th rising edge of `spi_sclk` from here: any value (R32, R73; log entry 5). -/
def rxBit (s : State) (j : Nat) : Bool := s.miso[j]?.getD (Config.misoBit (s.misoDrawn + j))

/-- The byte received in this byte time: the levels of `spi_miso` at its eight rising edges, the first one bit 7
(R27, R31, R32). -/
def rxByte (s : State) : Byte :=
  byteOfBits [rxBit s 0, rxBit s 1, rxBit s 2, rxBit s 3, rxBit s 4, rxBit s 5, rxBit s 6, rxBit s 7]

/-- The eight rising edges of one byte time are over. -/
def rxAdvance (s : State) : State := { s with miso := s.miso.drop 8, misoDrawn := s.misoDrawn + 8 }

/-- Latch a DAC frame and assert `cs_dac_n` (R20, R29). -/
def startDac (b0 b1 : Byte) (s : State) : State :=
  { s with seq := .dacB0, txbuf := { s.txbuf with b0 := b0, b1 := b1 } }

/-- Latch an ADC query and assert `cs_adc_n` (R20, R29). -/
def startAdc (t : ByteBuf) (s : State) : State := { s with seq := .adcB0, txbuf := t }

/-- One byte time on the wire: the sequencer moves to the next byte, an ADC byte is received while one is sent, and
the last byte of a frame ends the transfer and puts its event in the history (R20, R22, R31). Bytes received during
a DAC frame are discarded (R31; log entry 7). DESIGN CHOICE: when the transfer has ended `txbuf` and `rxbuf` keep the
bytes of the last transfer, where the spec allows any value (U8; log entry 22). -/
def byteStep (s : State) : State :=
  match s.seq with
  | .idle => s
  | .dacB0 => { s with seq := .dacB1 }
  | .dacB1 => { s with seq := .idle, spiLog := s.spiLog ++ [.dacFrame s.txbuf.b0 s.txbuf.b1] }
  | .adcB0 => { rxAdvance s with rxbuf := { s.rxbuf with b0 := rxByte s }, seq := .adcB1 }
  | .adcB1 => { rxAdvance s with rxbuf := { s.rxbuf with b1 := rxByte s }, seq := .adcB2 }
  | .adcB2 =>
    { rxAdvance s with
      rxbuf := { s.rxbuf with b2 := rxByte s }
      seq := .idle
      spiLog := s.spiLog ++
        [.adcXfer s.txbuf.b0 s.txbuf.b1 s.txbuf.b2 s.rxbuf.b0 s.rxbuf.b1 (rxByte s)] }

/-- The rest of the transfer, whatever byte it stands at: no frame has more than three bytes, and nothing can abort
a transfer (R29). -/
def runXfer (s : State) : State := byteStep (byteStep (byteStep s))

/-- `SpiXfer(DAC, [b0, b1])` (R31). -/
def spiXferDac (b : Byte × Byte) (s : State) : State := runXfer (startDac b.1 b.2 s)

/-- `SpiXfer(ADC, [t0, t1, t2])` (R31). -/
def spiXferAdc (t : ByteBuf) (s : State) : State := runXfer (startAdc t s)

/-- The response that ends a device command: 0 for DACWR, the sample for ADCRD (R64, R74, R82). -/
def complete (d : Dev) (s : State) : State :=
  match d with
  | .dac => respond false 0 s
  | .adc => respond false ((decAdc s.rxbuf).setWidth 16) s

/-- The device of the transfer in progress (R20, R21). -/
def Seq.dev : Seq → Option Dev
  | .idle => none
  | .dacB0 | .dacB1 => some .dac
  | .adcB0 | .adcB1 | .adcB2 => some .adc

/-- The frame that is latched and of which no byte has been sent yet: the word the wire is about to carry (R20). -/
def latchedFrame (s : State) : Option RawWord :=
  match s.seq with
  | .dacB0 => some (.dacf (s.txbuf.b0 ++ s.txbuf.b1))
  | .adcB0 => some (.adcf (s.txbuf.b0 ++ s.txbuf.b1 ++ s.txbuf.b2))
  | .idle | .dacB1 | .adcB1 | .adcB2 => none

/-- The ports in the next clock; with no clock listed nothing arrives (R82, R95: the block waits). -/
def State.ports (s : State) : Clock := s.clocks.headD Clock.quiet

/-- The clock is over. -/
def popClock (s : State) : State := { s with clocks := s.clocks.tail }

/-- The tick strobe has been taken; a command on the port in the same clock still stands there, to be accepted next
(R36). -/
def takeTick (s : State) : State :=
  match s.ports.cmd with
  | none => popClock s
  | some w => { s with clocks := { rst := false, tick := none, cmd := some w } :: s.clocks.tail }

/-- `rsp_valid` is 1 for one clock only (R44, R82). -/
def endResponse (s : State) : State := { s with rsp := none }

/-- `rst`: every state element at its reset value, a transfer in progress abandoned, the history empty (R24, R95);
the environment's inputs go on (log entry 3). -/
def hardReset (s : State) : State :=
  { State.reset with clocks := s.clocks.tail, miso := s.miso, misoDrawn := s.misoDrawn }

end Sys2Proof.Machine
end

