-- ==== Sys2Proof/Machine/Accept.lean ====
section
/-! DEFINITION. What the step does around an instruction: which input of this clock is taken, and how a transfer that
is already under way ends (20_memory.md R36; 44_host_access.md R82; 60_exceptions.md R88, R89). -/

namespace Sys2Proof.Machine

/-- What the next step takes. -/
inductive Taken
  /-- `rst` is asserted (R95). -/
  | reset
  /-- An instruction, the state it runs in, and the device whose command its end completes, if it is a frame. -/
  | instr (i : Instr) (s : State) (completes : Option Dev)
  /-- No instruction of the table: the state after the step. -/
  | other (s : State)
  deriving DecidableEq, Repr

/-- A transfer of device `d` is under way (R20): a latched frame none of whose bytes has been sent goes on the wire as
the wire instruction it decodes to; in any other case the bytes that are left are sent as they stand. No command is
accepted meanwhile, so the ports are left as they are (R82; log entries 1, 16). -/
def takeBusy (d : Dev) (s : State) : Taken :=
  match (latchedFrame s).map decode with
  | some (.ok i) => .instr i s (some d)
  | some (.rejected _) => .other (complete d (runXfer s))
  | none => .other (complete d (runXfer s))

/-- The port is ready: accept the command standing there, if any. A reserved word is accepted and ignored, with
response 0 (R51, R82). -/
def takeCommand (s : State) : Taken :=
  match s.ports.cmd with
  | none => .other (popClock s)
  | some w =>
    match decode (.cmd w) with
    | .ok i => .instr i (popClock s) none
    | .rejected _ => .other (respond false 0 (popClock s))

/-- Reset first, then the tick, then the transfer under way, then the command (R36, R88, R89, R95; log entry 3). -/
def take (s : State) : Taken :=
  if s.ports.rst then .reset
  else
    match s.ports.tick with
    | some v => .instr (decodeTick v) (takeTick s) none
    | none =>
      match s.seq.dev with
      | some d => takeBusy d s
      | none => takeCommand s

/-- The response a frame's end gives, if it completes a command. -/
def completeIf : Option Dev → State → State
  | none, s => s
  | some d, s => complete d s

/-- Store a word where the step takes its next instruction: a tick vector at the strobe, a command on the port, a
frame in `txbuf` with its first byte about to go out (log entry 2). -/
def placeWord (s : State) : RawWord → State
  | .tickv v => { s with clocks := { rst := false, tick := some v, cmd := none } :: s.clocks }
  | .cmd w => { s with seq := .idle, clocks := { rst := false, tick := none, cmd := some w } :: s.clocks }
  | .dacf f =>
    { startDac (f.extractLsb' 8 8) (f.extractLsb' 0 8) s with clocks := Clock.quiet :: s.clocks }
  | .adcf q =>
    { startAdc ⟨q.extractLsb' 16 8, q.extractLsb' 8 8, q.extractLsb' 0 8⟩ s with clocks := Clock.quiet :: s.clocks }

end Sys2Proof.Machine
end

