-- ==== Sys2Proof/Machine/Adc.lean ====
section
/-! DEFINITION. Family of the Analog Input Sampler: CALADC0 to CALADC3, ADCRD and the wire entry ADC.FRAME (42_adc.md
R70 to R76). -/

namespace Sys2Proof.Machine

/-- CALADC0 (R75). -/
def execCaladc0 (raw : Code) (s : State) : Host.Outcome State Fault Refusal :=
  done (respond false ((adcPinMv raw).setWidth 16) s)

/-- CALADC1 (R76). -/
def execCaladc1 (raw : Code) (s : State) : Host.Outcome State Fault Refusal :=
  done (respond false ((adcTerminalMv raw).setWidth 16) s)

/-- CALADC2 (R75). -/
def execCaladc2 (raw : Code) (s : State) : Host.Outcome State Fault Refusal :=
  done (respond false ((adcPinMv raw).setWidth 16) s)

/-- CALADC3 (R75). -/
def execCaladc3 (raw : Code) (s : State) : Host.Outcome State Fault Refusal :=
  done (respond false ((adcPinMv raw).setWidth 16) s)

/-- ADCRD (R74): the received bytes are free (R73). -/
def execAdcrd (ch : AdcChan) (s : State) : Host.Outcome State Fault Refusal :=
  done (complete .adc (spiXferAdc (encAdc ch) s))

/-- ADC.FRAME: the query on the wire, one SPI transaction (R71, R31); it gives no response of its own (log entry 9). -/
def execAdcFrame (ch : AdcChan) (s : State) : Host.Outcome State Fault Refusal :=
  done (spiXferAdc (encAdc ch) s)

end Sys2Proof.Machine
end

