-- ==== Sys2Proof/Machine/Dac.lean ====
section
/-! DEFINITION. Family of the Analog Output Driver: CALDAC0, CALDAC1, DACWR and the wire entry DAC.FRAME (41_dac.md
R61 to R69, gate 43_output_enable.md R80). -/

namespace Sys2Proof.Machine

/-- CALDAC0 (R67): a pure function of the target. -/
def execCaldac0 (t : Target) (s : State) : Host.Outcome State Fault Refusal :=
  done (respond false ((dac0Code t).setWidth 16) s)

/-- CALDAC1 (R68): a pure function of the target. -/
def execCaldac1 (t : Target) (s : State) : Host.Outcome State Fault Refusal :=
  done (respond false ((dac1Code t).setWidth 16) s)

/-- DACWR (R64): the channel enable is gated with `btn.enabled` as it is at acceptance (R80). -/
def execDacwr (c : DacChan) (g e : Bool) (v : Code) (s : State) : Host.Outcome State Fault Refusal :=
  done (complete .dac (spiXferDac (encDac c g (gateEnable Config.gateDac e s.btn.enabled) v) s))

/-- DAC.FRAME: the frame on the wire, one SPI transaction (R62, R31). It is not a command, so it gives no response;
the command that asked for it does (log entry 9). -/
def execDacFrame (c : DacChan) (g e : Bool) (v : Code) (s : State) : Host.Outcome State Fault Refusal :=
  done (spiXferDac (encDac c g e v) s)

end Sys2Proof.Machine
end

