-- ==== Sys2Proof/Machine/HostAccess.lean ====
section
/-! DEFINITION. Family of the host's reads: RDENC and RDBTN (44_host_access.md R83, R84). -/

namespace Sys2Proof.Machine

/-- RDENC `i`: flag and position of one instant, the flag cleared (R83). -/
def execRdenc (i : EncIdx) (s : State) : Host.Outcome State Fault Refusal :=
  done (respond (s.enc i).changed (s.enc i).pos (s.clearEncChanged i))

/-- RDBTN: flag and `enabled` of one instant, the flag cleared (R84). -/
def execRdbtn (s : State) : Host.Outcome State Fault Refusal :=
  done (respond s.btn.changed ((BitVec.ofBool s.btn.enabled).setWidth 16) s.clearBtnChanged)

end Sys2Proof.Machine
end

