-- ==== Sys2Proof/Machine/InputCapture.lean ====
section
/-! DEFINITION. Family TICK: the Input Capture Service (40_input_capture.md R55 to R60) and with it the transition of
the Output Enable Controller (43_output_enable.md R77). -/

namespace Sys2Proof.Machine

/-- BTN.STEP: `n` is the sampled level of the active-low button pin (R56). -/
def btnStep (n : Bool) (b : Button) : Button :=
  if n = false then { b with cnt := satInc8 b.cnt }
  else if 0 < b.cnt.toNat then
    if Config.debounceThreshold < b.cnt.toNat then
      { Button.raiseChanged b with enabled := !b.enabled, cnt := 0 }
    else { b with cnt := 0 }
  else b

/-- ENC.STEP: `a`, `b` are the sampled levels of phases A and B (R58). -/
def encStep (a b : Bool) (e : Encoder) : Encoder :=
  if e.lastA = false ∧ a = true then
    { Encoder.raiseChanged e with
      pos := if b = false then wrap16 (e.pos.toInt + 1) else wrap16 (e.pos.toInt - 1)
      lastA := a }
  else { e with lastA := a }

/-- TICK (R55). -/
def execTick (n a0 b0 a1 b1 : Bool) (s : State) : Host.Outcome State Fault Refusal :=
  done { s with btn := btnStep n s.btn, enc0 := encStep a0 b0 s.enc0, enc1 := encStep a1 b1 s.enc1 }

end Sys2Proof.Machine
end

