-- ==== Sys2Proof/Machine/Dispatch.lean ====
section
/-! DEFINITION. One arm per constructor of Instr (30_encoding.md R48). -/

namespace Sys2Proof.Machine

def exec (i : Instr) (s : State) : Host.Outcome State Fault Refusal :=
  match i with
  | .tick n a0 b0 a1 b1 => Sys2Proof.Machine.execTick n a0 b0 a1 b1 s
  | .rdenc i0 => Sys2Proof.Machine.execRdenc i0 s
  | .rdbtn => Sys2Proof.Machine.execRdbtn s
  | .caldac0 t => Sys2Proof.Machine.execCaldac0 t s
  | .caldac1 t => Sys2Proof.Machine.execCaldac1 t s
  | .caladc0 raw => Sys2Proof.Machine.execCaladc0 raw s
  | .caladc1 raw => Sys2Proof.Machine.execCaladc1 raw s
  | .caladc2 raw => Sys2Proof.Machine.execCaladc2 raw s
  | .caladc3 raw => Sys2Proof.Machine.execCaladc3 raw s
  | .dacwr c g e v => Sys2Proof.Machine.execDacwr c g e v s
  | .adcrd ch => Sys2Proof.Machine.execAdcrd ch s
  | .dacFrame c g e v => Sys2Proof.Machine.execDacFrame c g e v s
  | .adcFrame ch => Sys2Proof.Machine.execAdcFrame ch s

end Sys2Proof.Machine
end

