-- ==== Sys2Proof/Machine/Step.lean ====
section
/-! DEFINITION. One step of the machine: one whole TICK or one whole HOST command (00_scope.md R6, 20_memory.md R35);
or a reset, a clock in which nothing arrives, or the end of a transfer that is under way. -/

namespace Sys2Proof.Machine

/-- One step. The response of the step before is over first (R44). -/
def step (s : State) : Host.Outcome State Fault Refusal :=
  match take (endResponse s) with
  | .reset => .next (hardReset s)
  | .instr i s' d => afterNext (completeIf d) (exec i s')
  | .other s' => .next s'

/-- `s` with a word of the opcode table stored where the step takes its next instruction. -/
def State.withFetchWord (s : State) (nbits w : Nat) : State :=
  match tableWord nbits w with
  | some r => placeWord s r
  | none => s

end Sys2Proof.Machine
end

