-- ==== Sys2Proof/Machine/Pins.lean ====
section
/-! DEFINITION. The output pins as functions of the state (10_state.md R21; 43_output_enable.md R78 to R81) and the
host-visible status words (10_state.md R19). -/

namespace Sys2Proof.Machine

/-- The two states of the Output Enable Controller (R16). -/
inductive OutputEnable
  | DISABLED | ENABLED
  deriving DecidableEq, Repr

/-- `oe`: a view of `btn.enabled` (R16). -/
def State.oe (s : State) : OutputEnable := if s.btn.enabled then .ENABLED else .DISABLED

/-- `led_dis`, 1 = lit (R78). -/
def State.ledDis (s : State) : Bool := !s.btn.enabled

/-- `reg_en`, with the parameter GATE_REG as an argument: `none` is "not an output of the block" (R79, U2). -/
def State.regEnGated (gate : Bool) (s : State) : Option Bool := if gate then some s.btn.enabled else none

/-- `reg_en`, 1 = enabled (R79). -/
def State.regEn (s : State) : Option Bool := s.regEnGated Config.gateReg

/-- `cs_dac_n`: 0 exactly while a DAC byte is on the wire (R21). -/
def State.csDacN (s : State) : Bool := s.seq.dev != some .dac

/-- `cs_adc_n`: 0 exactly while an ADC byte is on the wire (R21). -/
def State.csAdcN (s : State) : Bool := s.seq.dev != some .adc

/-- `spi_sclk` and `spi_mosi` are 0 while idle (R21). Inside a transfer they follow the waveform of Wire.lean, which
a state does not place in time: `none`. -/
def State.idleLines (s : State) : Option (Bool × Bool) := if s.seq = .idle then some (false, false) else none

/-- `cmd_ready` (R20, R82). -/
def State.cmdReady (s : State) : Bool := s.seq = .idle

/-- `rsp_valid` (R44). -/
def State.rspValid (s : State) : Bool := s.rsp.isSome

/-- Status word ENC`i` as RDENC would return it (R19). -/
def State.encStatus (s : State) (i : EncIdx) : RspWord := rspWord (s.enc i).changed (s.enc i).pos

/-- Status word BTN as RDBTN would return it (R19). -/
def State.btnStatus (s : State) : RspWord := rspWord s.btn.changed ((BitVec.ofBool s.btn.enabled).setWidth 16)

end Sys2Proof.Machine
end

