-- ==== Sys2Proof/Machine/Pseudo.lean ====
section
/-! DEFINITION. The pseudo-operations, fixed sequences of real commands the HOST issues; the block does not know them
and ticks may fall between their commands (30_encoding.md R54). Where a later command has an operand from an earlier
response, it is a function of that response. -/

namespace Sys2Proof.Machine

/-- The code or sample in a response (R44). -/
def rspCode (r : RspWord) : Code := r.extractLsb' 0 12

/-- `CALDAC ch, t` (R53). -/
def caldac (ch : DacChan) (t : Target) : Instr := if ch = 0 then .caldac0 t else .caldac1 t

/-- `CALADC ch, raw` (R53). -/
def caladc (ch : AdcChan) (raw : Code) : Instr :=
  if ch = 0 then .caladc0 raw else if ch = 1 then .caladc1 raw else if ch = 2 then .caladc2 raw else .caladc3 raw

/-- `DACSET ch, t, g, e`: first command (R54). -/
def dacsetFirst (ch : DacChan) (t : Target) : Instr := caldac ch t

/-- `DACSET ch, t, g, e`: second command, with the code of the first one's response (R54). -/
def dacsetSecond (ch : DacChan) (g e : Bool) (r : RspWord) : Instr := .dacwr ch g e (rspCode r)

/-- `ADCMV ch`: first command (R54). -/
def adcmvFirst (ch : AdcChan) : Instr := .adcrd ch

/-- `ADCMV ch`: second command, with the sample of the first one's response (R54). -/
def adcmvSecond (ch : AdcChan) (r : RspWord) : Instr := caladc ch (rspCode r)

/-- `POLL` (R54). -/
def poll : List Instr := [.rdenc 0, .rdenc 1, .rdbtn]

end Sys2Proof.Machine
end

