-- ==== Sys2Proof/Machine/Wire.lean ====
section
/-! DEFINITION. The pin-level refinement of an SPI transfer (20_memory.md R27, R32): the levels of the SPI pins in each
system clock, and what a receiver that samples at rising edges of `spi_sclk` sees, in both directions. No state rule
depends on it. -/

namespace Sys2Proof.Machine

/-- The four SPI output pins in one system clock (R9). -/
structure PinSample where
  csDacN : Bool
  csAdcN : Bool
  sclk : Bool
  mosi : Bool
  deriving DecidableEq, Repr

/-- The pins with the chip select of `d` asserted and the other one not (R29). -/
def selected (d : Dev) (sclk mosi : Bool) : PinSample := ⟨d != .dac, d != .adc, sclk, mosi⟩

/-- The pins of an idle bus (R32). -/
def idlePins : PinSample := ⟨true, true, false, false⟩

/-- One bit: half an SPI clock with `spi_sclk` = 0, half with `spi_sclk` = 1, `spi_mosi` steady (R32, D24). -/
def bitWave (d : Dev) (b : Bool) : List PinSample :=
  List.replicate (Config.spiDiv / 2) (selected d false b) ++ List.replicate (Config.spiDiv / 2) (selected d true b)

/-- One byte, bit 7 first (R27, R32). -/
def byteWave (d : Dev) (b : Byte) : List PinSample := (bitsMsbFirst b).flatMap (bitWave d)

/-- `n` margin clocks of transfer number `x` with `spi_sclk` = 0, the `k`-th of the transfer onwards; the level of
`spi_mosi` there is not stated and is a free value, one for each margin clock of each transfer (R32; log entry 13). -/
def marginWave (d : Dev) (x k n : Nat) : List PinSample :=
  (List.range n).map (fun j => selected d false (Config.mosiMargin x (k + j)))

/-- The bytes of a frame from byte number `k` on, with the gap `T_IBG` before every byte but the first (R32). -/
def bytesWave (d : Dev) (x : Nat) : Nat → List Byte → List PinSample
  | _, [] => []
  | 0, b :: bs => byteWave d b ++ bytesWave d x 1 bs
  | k + 1, b :: bs =>
    marginWave d x (Config.tCss + k * Config.tIbg) Config.tIbg ++ byteWave d b ++ bytesWave d x (k + 2) bs

/-- The output pins in transfer number `x`, from the assertion of the chip select to its release (R32). -/
def frameWave (d : Dev) (x : Nat) (bytes : List Byte) : List PinSample :=
  marginWave d x 0 Config.tCss ++ bytesWave d x 0 bytes ++
    marginWave d x (Config.tCss + (bytes.length - 1) * Config.tIbg) Config.tCsh

/-- The output pins and `spi_miso`, the one SPI input, in one system clock (R9). -/
structure BusSample where
  pins : PinSample
  miso : Bool
  deriving DecidableEq, Repr

/-- The bus from system clock number `n` of a transfer on, `m` giving the level of `spi_miso` in each clock of it: any
levels whatever (R32, R73). -/
def onBus (m : Nat → Bool) : Nat → List PinSample → List BusSample
  | _, [] => []
  | n, p :: ps => ⟨p, m n⟩ :: onBus m (n + 1) ps

/-- The whole bus in transfer number `x`, while `spi_miso` shows `m` (R32). -/
def frameBus (d : Dev) (x : Nat) (m : Nat → Bool) (bytes : List Byte) : List BusSample := onBus m 0 (frameWave d x bytes)

/-- The levels of a line at the rising edges of `spi_sclk`, `prev` being the level of `spi_sclk` before (R32). The
level at an edge is the one in the first clock with `spi_sclk` = 1 (log entry 23). -/
def atRisingEdges {α : Type} (sclk line : α → Bool) : Bool → List α → List Bool
  | _, [] => []
  | prev, p :: ps =>
    if prev = false ∧ sclk p = true then line p :: atRisingEdges sclk line (sclk p) ps
    else atRisingEdges sclk line (sclk p) ps

/-- What a device samples: `spi_mosi` at the rising edges of `spi_sclk` (R32). -/
def risingBits (prev : Bool) (ps : List PinSample) : List Bool := atRisingEdges PinSample.sclk PinSample.mosi prev ps

/-- What the block samples: `spi_miso` at the rising edges of `spi_sclk` (R32). -/
def risingMiso (prev : Bool) (bs : List BusSample) : List Bool := atRisingEdges (fun b => b.pins.sclk) BusSample.miso prev bs

/-- The bytes the block receives over a transfer: `spi_miso` sampled at the rising edges, bit 7 first (R27, R32). -/
def receivedBytes (bs : List BusSample) : List Byte := bytesOfBits (risingMiso false bs)

/-- The bytes a history event put on the wire (R22). -/
def SpiEvent.sent : SpiEvent → List Byte
  | .dacFrame b0 b1 => [b0, b1]
  | .adcXfer t0 t1 t2 _ _ _ => [t0, t1, t2]

/-- The device an event went to (R22). -/
def SpiEvent.dev : SpiEvent → Dev
  | .dacFrame .. => .dac
  | .adcXfer .. => .adc

/-- The bytes a history event keeps as received: none for a DAC frame, where they are discarded (R22, R31). -/
def SpiEvent.received : SpiEvent → List Byte
  | .dacFrame .. => []
  | .adcXfer _ _ _ r0 r1 r2 => [r0, r1, r2]

/-- The waveform of a history event that is transfer number `x` (R22, R32). -/
def SpiEvent.wave (x : Nat) (ev : SpiEvent) : List PinSample := frameWave ev.dev x ev.sent

/-- The bus over a history event that is transfer number `x`, while `spi_miso` shows `m` (R22, R32). -/
def SpiEvent.bus (x : Nat) (m : Nat → Bool) (ev : SpiEvent) : List BusSample := frameBus ev.dev x m ev.sent

end Sys2Proof.Machine
end

