-- ==== Sys2Proof/Safety.lean ====
section
/-! DEFINITION. What claims are stated in terms of: the invariant of the wire, the transaction-level condition, and
small readers of a history. -/

namespace Sys2Proof.Machine

/-- The three bytes are one of the four queries the block sends (30_encoding.md R40, R50; 42_adc.md R71). -/
def isAdcQuery (t : ByteBuf) : Prop := ∃ ch : AdcChan, t = encAdc ch

/-- An event the block may put in its history: bit 6 of a DAC Byte0 is 0 (R49) and an ADC query is one of the four
(R50). -/
def SpiEvent.legal : SpiEvent → Prop
  | .dacFrame b0 _ => b0.getLsbD 6 = false
  | .adcXfer t0 t1 t2 _ _ _ => isAdcQuery ⟨t0, t1, t2⟩

/-- The bytes latched for a transfer under way are a frame the block may send (R20, R49, R50). -/
def State.latchLegal (s : State) : Prop :=
  match s.seq.dev with
  | none => True
  | some .dac => s.txbuf.b0.getLsbD 6 = false
  | some .adc => isAdcQuery s.txbuf

/-- The wire invariant: everything sent, and everything latched to be sent, is a frame of R39 or R40. -/
def State.WireInv (s : State) : Prop := s.latchLegal ∧ ∀ ev ∈ s.spiLog, ev.legal

/-- The transaction-level condition: no transfer is under way between two steps (00_scope.md R6, 10_state.md R20). -/
def State.Settled (s : State) : Prop := s.seq = .idle

/-- Bit 4 of Byte0, channel-enable, is 0 in a DAC frame (43_output_enable.md R80). -/
def SpiEvent.channelOff : SpiEvent → Prop
  | .dacFrame b0 _ => b0.getLsbD 4 = false
  | .adcXfer .. => True

/-- The Shared Control State (10_state.md R13) is the same in both states. -/
def SameControl (s t : State) : Prop := t.enc0 = s.enc0 ∧ t.enc1 = s.enc1 ∧ t.btn = s.btn

/-- The hidden state of a transfer (R20) and the history (R22) are the same in both states. -/
def SameWire (s t : State) : Prop :=
  t.seq = s.seq ∧ t.txbuf = s.txbuf ∧ t.rxbuf = s.rxbuf ∧ t.spiLog = s.spiLog

/-- The environment's inputs still to come are the same in both states. -/
def SameInputs (s t : State) : Prop := t.clocks = s.clocks ∧ t.miso = s.miso ∧ t.misoDrawn = s.misoDrawn

/-- Nothing but the response differs (a pure command: 41_dac.md R67, 42_adc.md R75). -/
def OnlyResponds (s t : State) : Prop := SameControl s t ∧ SameWire s t ∧ SameInputs s t

/-- The number a Boolean operand stands for in the frame formulas (00_scope.md R10). -/
def bit (b : Bool) : Nat := if b then 1 else 0

/-- A clock in which only a tick arrives. -/
def tickClock (v : TickVec) : Clock := ⟨false, some v, none⟩

/-- A clock in which only a command arrives. -/
def cmdClock (w : CmdWord) : Clock := ⟨false, none, some w⟩

end Sys2Proof.Machine
end

