-- ==== Sys2Proof/Certificates/Slice0/Obligations.lean ====
section
/-! DEFINITION. The statements for the provers, each from the numbered rules of spec/. -/

open Sys2Proof Sys2Proof.Machine

/-! ### Reset and the step -/

/-- R24: what reset leaves, the outputs after it, and the consequence of `lastA` = LOW for the first tick. The values
of `txbuf` and `rxbuf`, which R24 leaves unspecified, are not stated. -/
def Obligations.ResetLeavesTheSpecValues : Prop :=
  let r := State.reset
  (∀ i : EncIdx, r.enc i = ⟨0, false, false⟩) ∧ r.btn = ⟨0, false, false⟩ ∧ r.oe = .DISABLED ∧ r.seq = .idle ∧
  r.ledDis = true ∧ r.regEn = some false ∧ r.csDacN = true ∧ r.csAdcN = true ∧ r.idleLines = some (false, false) ∧
  r.cmdReady = true ∧ r.rspValid = false ∧ r.spiLog = [] ∧
  ∀ n a0 b0 a1 b1 : Bool, ∃ t, exec (.tick n a0 b0 a1 b1) r = .next t ∧
    t.enc0.pos.toInt = (if a0 then (if b0 then -1 else 1) else 0) ∧
    t.enc1.pos.toInt = (if a1 then (if b1 then -1 else 1) else 0)

/-- R95: one clock of `rst` puts every state element at its reset value whatever else stands on the ports and whatever
transfer is under way. The model's own: that the reset wins over the rest of the clock and the environment's inputs go
on (log entry 3), and that `txbuf` and `rxbuf`, unspecified by R24, become zero (log entry 6). -/
def Obligations.ResetStepGivesResetState : Prop :=
  ∀ s : State, s.ports.rst = true → ∃ t, step s = .next t ∧
    t = { State.reset with clocks := s.clocks.tail, miso := s.miso, misoDrawn := s.misoDrawn }

/-- R88, R36: a tick on the ports is taken first, in the state with the response over and the strobe removed; a
command in the same clock is still on the port afterwards. -/
def Obligations.StepTakesTheTickFirst : Prop :=
  ∀ (s : State) (v : TickVec), s.ports.rst = false → s.ports.tick = some v →
    step s = exec (decodeTick v) (takeTick (endResponse s)) ∧
    (∀ w, s.ports.cmd = some w → (takeTick (endResponse s)).ports = ⟨false, none, some w⟩) ∧
    (s.ports.cmd = none → (takeTick (endResponse s)).clocks = s.clocks.tail)

/-- R82: with the port ready and no tick, the step is the decoded command, run with the clock consumed. -/
def Obligations.StepRunsTheDecodedCommand : Prop :=
  ∀ (s : State) (w : CmdWord) (i : Instr), s.ports.rst = false → s.ports.tick = none → s.cmdReady = true →
    s.ports.cmd = some w → decode (.cmd w) = .ok i → step s = exec i (popClock (endResponse s))

/-- R20, R52: with a frame latched and its first byte about to go out, and no tick, the step is the wire instruction
the latched bytes decode to, and the response of the command that asked for it follows (log entry 9). -/
def Obligations.StepRunsTheLatchedFrame : Prop :=
  ∀ (s : State) (i : Instr), s.ports.rst = false → s.ports.tick = none →
    (s.seq = .dacB0 → decode (.dacf (s.txbuf.b0 ++ s.txbuf.b1)) = .ok i →
      step s = afterNext (complete .dac) (exec i (endResponse s))) ∧
    (s.seq = .adcB0 → decode (.adcf (s.txbuf.b0 ++ s.txbuf.b1 ++ s.txbuf.b2)) = .ok i →
      step s = afterNext (complete .adc) (exec i (endResponse s)))

/-- The model's own (log entry 20, DEDUCED; R35 counts only ticks and commands as steps): with nothing on the ports and
no transfer under way the block waits, and only the response pulse ends. R82 and R95 are what it rests on. -/
def Obligations.QuietClockOnlyEndsTheResponse : Prop :=
  ∀ s : State, s.ports = Clock.quiet → s.seq = .idle →
    step s = .next { s with rsp := none, clocks := s.clocks.tail }

/-- R51: a word that matches no row of the command table is accepted and ignored, with response 0. -/
def Obligations.ReservedWordsAreIgnored : Prop :=
  ∀ (s : State) (w : CmdWord), s.ports.rst = false → s.ports.tick = none → s.cmdReady = true → s.ports.cmd = some w →
    (∀ r ∈ cmdRows, w.toNat &&& r.mask ≠ r.pattern) →
    step s = .next { s with rsp := some 0, clocks := s.clocks.tail }

/-- R20, R29, R82: while a transfer is under way no command is accepted: the step ends the transfer, leaves the
command on the port, gives one response, and does not touch the Shared Control State. -/
def Obligations.BusyPortAcceptsNoCommand : Prop :=
  ∀ s : State, s.ports.rst = false → s.ports.tick = none → s.seq ≠ .idle → s.cmdReady = false ∧
    ∃ t, step s = .next t ∧ t.cmdReady = true ∧ t.clocks = s.clocks ∧ SameControl s t ∧ t.rspValid = true ∧
      t.spiLog.length = s.spiLog.length + 1

/-- R86: every operation is total, and so is every step. -/
def Obligations.EveryOperationCompletes : Prop :=
  (∀ (i : Instr) (s : State), ∃ t, exec i s = .next t) ∧ ∀ s : State, ∃ t, step s = .next t

/-- Every instruction, placed where the step takes its next one, is the one that runs, on the Shared Control State and
the history as they were (R35, R48). The model's own: the placing (log entry 2), the response of the command that asked
for it after a wire frame (log entry 9), and the quiet clock still at the head in the step of such a frame, since a step
that ends a transfer consumes none (log entry 16). -/
def Obligations.PlacedInstructionRuns : Prop :=
  ∀ (i : Instr) (s : State), ∃ (u : State) (d : Option Dev),
    step (placeWord s (encode i)) = afterNext (completeIf d) (exec i u) ∧
    SameControl s u ∧ u.spiLog = s.spiLog ∧ u.rsp = none ∧ u.clocks = (if d = none then s.clocks else Clock.quiet :: s.clocks)

/-! ### TICK -/

/-- R56: BTN.STEP, all four cases. -/
def Obligations.TickDebouncesTheButton : Prop :=
  ∀ (n a0 b0 a1 b1 : Bool) (s : State), ∃ t, exec (.tick n a0 b0 a1 b1) s = .next t ∧
    (n = false → t.btn.cnt.toNat = min (s.btn.cnt.toNat + 1) 255 ∧ t.btn.enabled = s.btn.enabled ∧
      t.btn.changed = s.btn.changed) ∧
    (n = true → 3 < s.btn.cnt.toNat → t.btn = ⟨0, !s.btn.enabled, true⟩) ∧
    (n = true → s.btn.cnt.toNat ≤ 3 → t.btn = ⟨0, s.btn.enabled, s.btn.changed⟩)

/-- R58: ENC.STEP, for both encoders: one count per rising edge of A in the direction B gives, wrapping at 16 bits. -/
def Obligations.TickCountsRisingEdges : Prop :=
  ∀ (n a0 b0 a1 b1 : Bool) (s : State), ∃ t, exec (.tick n a0 b0 a1 b1) s = .next t ∧
    ∀ (i : EncIdx) (a b : Bool), a = (if i = 0 then a0 else a1) → b = (if i = 0 then b0 else b1) →
      (t.enc i).lastA = a ∧
      ((s.enc i).lastA = false ∧ a = true →
        (t.enc i).changed = true ∧
        (t.enc i).pos.toInt = Int.bmod ((s.enc i).pos.toInt + (if b then -1 else 1)) (2 ^ 16)) ∧
      (¬ ((s.enc i).lastA = false ∧ a = true) →
        (t.enc i).changed = (s.enc i).changed ∧ (t.enc i).pos = (s.enc i).pos)

/-- R55: TICK writes nothing but the Shared Control State, only ever sets a flag, and the output pins change exactly
when `enabled` toggles. -/
def Obligations.TickFrame : Prop :=
  ∀ (n a0 b0 a1 b1 : Bool) (s : State), ∃ t, exec (.tick n a0 b0 a1 b1) s = .next t ∧
    SameWire s t ∧ SameInputs s t ∧ t.rsp = s.rsp ∧
    (s.btn.changed = true → t.btn.changed = true) ∧
    (∀ i, (s.enc i).changed = true → (t.enc i).changed = true) ∧
    (t.ledDis ≠ s.ledDis ↔ t.btn.enabled ≠ s.btn.enabled) ∧ (t.regEn ≠ s.regEn ↔ t.btn.enabled ≠ s.btn.enabled)

/-- R57: a depressed run of k samples starting from count 0, then a release, toggles `enabled` exactly when k is at
least 4; the count at the release is min(k, 255) and 0 after it; the encoder pins may do anything meanwhile. -/
def Obligations.DebounceContract : Prop :=
  ∀ (s : State) (vs : List TickVec) (v : TickVec) (rest : List Clock), s.btn.cnt = 0 →
    (∀ x ∈ vs, x.getLsbD 4 = false) → v.getLsbD 4 = true → s.clocks = (vs ++ [v]).map tickClock ++ rest →
    (∃ u, Sys2Proof.core.run vs.length s = .next u ∧ u.btn.cnt.toNat = min vs.length 255 ∧
      u.btn.enabled = s.btn.enabled) ∧
    ∃ t, Sys2Proof.core.run (vs.length + 1) s = .next t ∧ t.btn.cnt = 0 ∧
      t.btn.enabled = (if 4 ≤ vs.length then !s.btn.enabled else s.btn.enabled) ∧
      t.btn.changed = (if 4 ≤ vs.length then true else s.btn.changed) ∧
      t.clocks = rest ∧ SameWire s t

/-- R59: over any step that is not a reset, a position moves exactly on a tick with a rising edge of its phase A, and
then by one in the direction of phase B, modulo 2^16. -/
def Obligations.PositionMovesOnlyOnRisingEdges : Prop :=
  ∀ (s t : State) (i : EncIdx), s.ports.rst = false → step s = .next t →
    ((t.enc i).pos ≠ (s.enc i).pos ↔
      ∃ v, s.ports.tick = some v ∧ (s.enc i).lastA = false ∧ v.getLsbD (if i = 0 then 3 else 1) = true) ∧
    ∀ v, s.ports.tick = some v → (s.enc i).lastA = false → v.getLsbD (if i = 0 then 3 else 1) = true →
      (t.enc i).pos = (s.enc i).pos + (if v.getLsbD (if i = 0 then 2 else 0) then -1 else 1)

/-- R77: over any step that is not a reset, `enabled` changes exactly on a tick that samples the button released with
the count above 3; a reset gives DISABLED. -/
def Obligations.OnlyAReleaseTogglesEnable : Prop :=
  ∀ s t : State, step s = .next t →
    (s.ports.rst = true → t.oe = .DISABLED) ∧
    (s.ports.rst = false →
      (t.oe ≠ s.oe ↔ ∃ v, s.ports.tick = some v ∧ v.getLsbD 4 = true ∧ 3 < s.btn.cnt.toNat))

/-- R30, R55: a step that takes a tick sends nothing and leaves a transfer under way as it was. -/
def Obligations.TickStepTouchesNoSpi : Prop :=
  ∀ (s t : State), s.ports.rst = false → s.ports.tick ≠ none → step s = .next t →
    SameWire s t ∧ t.miso = s.miso ∧ t.misoDrawn = s.misoDrawn ∧ t.csDacN = s.csDacN ∧ t.csAdcN = s.csAdcN

/-! ### RDENC and RDBTN -/

/-- R83: RDENC returns flag and position of one instant, clears that flag, and changes nothing else. -/
def Obligations.RdencReadsAndClears : Prop :=
  ∀ (i : EncIdx) (s : State), ∃ t, exec (.rdenc i) s = .next t ∧
    t.rsp = some (s.encStatus i) ∧ (s.encStatus i).getLsbD 16 = (s.enc i).changed ∧
    (s.encStatus i).setWidth 16 = (s.enc i).pos ∧
    t.enc i = { s.enc i with changed := false } ∧ (∀ j, j ≠ i → t.enc j = s.enc j) ∧ t.btn = s.btn ∧
    SameWire s t ∧ SameInputs s t

/-- R84: RDBTN returns flag and `enabled` of one instant, clears the flag, and changes nothing else. -/
def Obligations.RdbtnReadsAndClears : Prop :=
  ∀ s : State, ∃ t, exec .rdbtn s = .next t ∧
    t.rsp = some (s.btnStatus) ∧ s.btnStatus.toNat = 65536 * bit s.btn.changed + bit s.btn.enabled ∧
    t.btn = ⟨s.btn.cnt, s.btn.enabled, false⟩ ∧ (∀ i, t.enc i = s.enc i) ∧ SameWire s t ∧ SameInputs s t

/-- R34: neither read is idempotent: a second read of the same word answers flag 0 and the same value. -/
def Obligations.SecondReadReturnsFlagZero : Prop :=
  (∀ (i : EncIdx) (s : State), ∃ t u, exec (.rdenc i) s = .next t ∧ exec (.rdenc i) t = .next u ∧
    u.rsp = some (rspWord false (s.enc i).pos)) ∧
  ∀ s : State, ∃ t u, exec .rdbtn s = .next t ∧ exec .rdbtn t = .next u ∧
    u.rsp = some (rspWord false ((BitVec.ofBool s.btn.enabled).setWidth 16))

/-- R44: every command other than RDENC and RDBTN answers with flag 0. -/
def Obligations.OnlyTheReadsSetTheResponseFlag : Prop :=
  ∀ (i : Instr) (w : CmdWord) (s : State), encode i = .cmd w → (∀ k, i ≠ .rdenc k) → i ≠ .rdbtn →
    ∃ (t : State) (r : RspWord), exec i s = .next t ∧ t.rsp = some r ∧ r.getLsbD 16 = false

/-- R36: a tick and a command in one clock: the tick first, and the command sees its result; in particular RDENC and
RDBTN report what that tick did and clear the flag. -/
def Obligations.SameClockCommandSeesTheTick : Prop :=
  ∀ (s : State) (v : TickVec) (w : CmdWord) (i : Instr), s.ports = ⟨false, some v, some w⟩ → s.cmdReady = true →
    decode (.cmd w) = .ok i →
    ∃ u t, exec (decodeTick v) (takeTick (endResponse s)) = .next u ∧ exec i (popClock u) = .next t ∧
      Sys2Proof.core.run 2 s = .next t ∧ t.clocks = s.clocks.tail ∧
      (∀ k, i = .rdenc k → t.rsp = some (rspWord (u.enc k).changed (u.enc k).pos) ∧ (t.enc k).changed = false) ∧
      (i = .rdbtn → t.rsp = some (rspWord u.btn.changed ((BitVec.ofBool u.btn.enabled).setWidth 16)) ∧
        t.btn.changed = false)

/-- R18, R36: a set flag stays set until reset or the one command that reads it; and a count or a toggle always
leaves its flag set, so that none is ever unreported. -/
def Obligations.FlagsAreStickyAndComplete : Prop :=
  ∀ s t : State, s.ports.rst = false → step s = .next t →
    (∀ i, (s.enc i).changed = true → (t.enc i).changed = false →
      s.ports.tick = none ∧ ∃ w, s.ports.cmd = some w ∧ decode (.cmd w) = .ok (.rdenc i)) ∧
    (s.btn.changed = true → t.btn.changed = false →
      s.ports.tick = none ∧ ∃ w, s.ports.cmd = some w ∧ decode (.cmd w) = .ok .rdbtn) ∧
    (∀ i, (t.enc i).pos ≠ (s.enc i).pos → (t.enc i).changed = true) ∧
    (t.btn.enabled ≠ s.btn.enabled → t.btn.changed = true)

/-- R85: a step that takes no tick and no reset writes no position, no `lastA`, no count and no `enabled`, and sets no
flag. -/
def Obligations.HostWritesNothingButFlagClears : Prop :=
  ∀ s t : State, s.ports.rst = false → s.ports.tick = none → step s = .next t →
    (∀ i, (t.enc i).pos = (s.enc i).pos ∧ (t.enc i).lastA = (s.enc i).lastA ∧
      ((t.enc i).changed = true → (s.enc i).changed = true)) ∧
    t.btn.cnt = s.btn.cnt ∧ t.btn.enabled = s.btn.enabled ∧ (t.btn.changed = true → s.btn.changed = true)

/-! ### Calibration -/

/-- R66, R67: CALDAC0 answers the clamped code and changes nothing else. -/
def Obligations.Caldac0AnswersTheClampedCode : Prop :=
  ∀ (t : Target) (s : State), ∃ (u : State) (code : Code), exec (.caldac0 t) s = .next u ∧
    (code.toNat : Int) = max 0 (min 4095 ((4530000 - 437 * t.toInt).tdiv 1000)) ∧
    u.rsp = some (rspWord false (code.setWidth 16)) ∧ OnlyResponds s u

/-- R67, corner cases: the ranges at both ends, and the code never rises with the target. -/
def Obligations.Caldac0CornersAndDirection : Prop :=
  (∀ t : Target, t.toInt ≤ 995 → dac0Code t = 4095) ∧ (∀ t : Target, t.toInt = 996 → dac0Code t = 4094) ∧
  (∀ t : Target, t.toInt = 10363 → dac0Code t = 1) ∧ (∀ t : Target, 10364 ≤ t.toInt → dac0Code t = 0) ∧
  (∀ t u : Target, t.toInt ≤ u.toInt → (dac0Code u).toNat ≤ (dac0Code t).toNat) ∧
  ∀ (t : Target) (s : State), ∃ u, exec (.caldac0 t) s = .next u ∧ u.rsp = some (rspWord false ((dac0Code t).setWidth 16))

/-- R66, R68: CALDAC1 answers the clamped code and changes nothing else. -/
def Obligations.Caldac1AnswersTheClampedCode : Prop :=
  ∀ (t : Target) (s : State), ∃ (u : State) (code : Code), exec (.caldac1 t) s = .next u ∧
    (code.toNat : Int) = max 0 (min 4095 (((t.toInt - 1250) * 100).tdiv 221)) ∧
    u.rsp = some (rspWord false (code.setWidth 16)) ∧ OnlyResponds s u

/-- R68, corner cases: the ranges at both ends, and the code never falls as the target rises. -/
def Obligations.Caldac1CornersAndDirection : Prop :=
  (∀ t : Target, t.toInt ≤ 1252 → dac1Code t = 0) ∧ (∀ t : Target, t.toInt = 1253 → dac1Code t = 1) ∧
  (∀ t : Target, t.toInt = 10299 → dac1Code t = 4094) ∧ (∀ t : Target, 10300 ≤ t.toInt → dac1Code t = 4095) ∧
  (∀ t u : Target, t.toInt ≤ u.toInt → (dac1Code t).toNat ≤ (dac1Code u).toNat) ∧
  ∀ (t : Target) (s : State), ∃ u, exec (.caldac1 t) s = .next u ∧ u.rsp = some (rspWord false ((dac1Code t).setWidth 16))

/-- R75: CALADC0, CALADC2 and CALADC3 answer the sample itself and change nothing else. -/
def Obligations.CaladcPinChannelsAreIdentity : Prop :=
  ∀ (raw : Code) (s : State), ∀ i ∈ [Instr.caladc0 raw, .caladc2 raw, .caladc3 raw],
    ∃ u, exec i s = .next u ∧ u.rsp = some (rspWord false (BitVec.ofNat 16 raw.toNat)) ∧ OnlyResponds s u

/-- R76: CALADC1 answers the sample times 2.65, truncated, in 0..10851, and changes nothing else. -/
def Obligations.Caladc1ScalesByTwoPointSixFive : Prop :=
  ∀ (raw : Code) (s : State), ∃ (u : State) (mV : Nat), exec (.caladc1 raw) s = .next u ∧
    mV = raw.toNat * 265 / 100 ∧ mV ≤ 10851 ∧ u.rsp = some (rspWord false (BitVec.ofNat 16 mV)) ∧ OnlyResponds s u

/-! ### The devices -/

/-- R62, R64, R80: DACWR sends one frame with the channel enable gated by `enabled`, logs it, answers 0, and changes
no block state. The model's own: `rxbuf`, the third byte of `txbuf` and the MISO input untouched (log entry 7), and the
frame's bytes still in `txbuf` afterwards, where U8 allows any value (log entry 22). -/
def Obligations.DacwrSendsTheGatedFrame : Prop :=
  ∀ (c : DacChan) (g e : Bool) (v : Code) (s : State), ∃ (t : State) (b0 b1 : Byte),
    exec (.dacwr c g e v) s = .next t ∧
    b0.toNat = c.toNat * 128 + (1 - bit g) * 32 + bit (e && s.btn.enabled) * 16 + v.toNat / 256 ∧
    b1.toNat = v.toNat % 256 ∧
    t.spiLog = s.spiLog ++ [.dacFrame b0 b1] ∧ t.rsp = some 0 ∧ t.seq = .idle ∧
    SameControl s t ∧ SameInputs s t ∧ t.rxbuf = s.rxbuf ∧ t.txbuf = ⟨b0, b1, s.txbuf.b2⟩

/-- R31, R62: DAC.FRAME puts its two bytes on the wire as one transaction and changes nothing else. The model's own: no
response (log entry 9), `rxbuf`, the third byte of `txbuf` and the MISO input untouched (log entry 7), and the frame's
bytes still in `txbuf` afterwards (log entry 22). -/
def Obligations.DacFrameGoesOnTheWire : Prop :=
  ∀ (c : DacChan) (g e : Bool) (v : Code) (s : State), ∃ (t : State) (b0 b1 : Byte),
    exec (.dacFrame c g e v) s = .next t ∧
    b0.toNat = c.toNat * 128 + (1 - bit g) * 32 + bit e * 16 + v.toNat / 256 ∧ b1.toNat = v.toNat % 256 ∧
    t.spiLog = s.spiLog ++ [.dacFrame b0 b1] ∧ t.seq = .idle ∧ t.rsp = s.rsp ∧
    SameControl s t ∧ SameInputs s t ∧ t.rxbuf = s.rxbuf ∧ t.txbuf = ⟨b0, b1, s.txbuf.b2⟩

/-- R74: ADCRD sends the query, receives the next three free bytes, logs both, answers the sample, and changes no
block state. The received bytes are any bytes: the statement holds for every value of them. The model's own: the MISO
input as a list that the transfer uses up (log entry 5), and the transfer's bytes still in `txbuf` and `rxbuf` when the
one step of the transfer is over, where U8 allows any value (log entries 1, 22). -/
def Obligations.AdcrdSamplesOneChannel : Prop :=
  ∀ (ch : AdcChan) (s : State), ∃ (t : State) (t1 r0 r1 r2 : Byte), exec (.adcrd ch) s = .next t ∧
    t1.toNat = ch.toNat * 64 ∧
    r0 = rxByte s ∧ r1 = rxByte (rxAdvance s) ∧ r2 = rxByte (rxAdvance (rxAdvance s)) ∧
    t.spiLog = s.spiLog ++ [.adcXfer 0x06#8 t1 0x00#8 r0 r1 r2] ∧
    t.rsp = some (rspWord false (BitVec.ofNat 16 (r1.toNat % 16 * 256 + r2.toNat))) ∧
    t.seq = .idle ∧ SameControl s t ∧ t.clocks = s.clocks ∧ t.txbuf = ⟨0x06#8, t1, 0x00#8⟩ ∧ t.rxbuf = ⟨r0, r1, r2⟩ ∧
    t.miso = s.miso.drop 24 ∧ t.misoDrawn = s.misoDrawn + 24

/-- R73, R27: the ADC may answer with any three bytes, bit 7 of each first, and the event and the sample follow them.
The model's own: the MISO input as a list (log entry 5), and `rxbuf` after the transfer (log entries 1, 22). -/
def Obligations.AdcAnswerMayBeAnyBytes : Prop :=
  ∀ (ch : AdcChan) (r0 r1 r2 : Byte) (rest : List Bool) (s : State),
    s.miso = bitsMsbFirst r0 ++ bitsMsbFirst r1 ++ bitsMsbFirst r2 ++ rest →
    ∃ (t : State) (t0 t1 t2 : Byte), exec (.adcrd ch) s = .next t ∧ t.spiLog = s.spiLog ++ [.adcXfer t0 t1 t2 r0 r1 r2] ∧
      t.rxbuf = ⟨r0, r1, r2⟩ ∧ t.miso = rest ∧
      t.rsp = some (rspWord false (BitVec.ofNat 16 (r1.toNat % 16 * 256 + r2.toNat)))

/-- R31, R71: ADC.FRAME puts the query on the wire as one transaction, receives three free bytes, and gives no
response of its own. The model's own: no response (log entry 9), the MISO input as a list that the transfer uses up (log
entry 5), and the transfer's bytes still in `txbuf` and `rxbuf` afterwards (log entries 1, 22). -/
def Obligations.AdcFrameGoesOnTheWire : Prop :=
  ∀ (ch : AdcChan) (s : State), ∃ (t : State) (t1 r0 r1 r2 : Byte), exec (.adcFrame ch) s = .next t ∧
    t1.toNat = ch.toNat * 64 ∧
    r0 = rxByte s ∧ r1 = rxByte (rxAdvance s) ∧ r2 = rxByte (rxAdvance (rxAdvance s)) ∧
    t.spiLog = s.spiLog ++ [.adcXfer 0x06#8 t1 0x00#8 r0 r1 r2] ∧ t.rsp = s.rsp ∧
    t.seq = .idle ∧ SameControl s t ∧ t.clocks = s.clocks ∧ t.txbuf = ⟨0x06#8, t1, 0x00#8⟩ ∧ t.rxbuf = ⟨r0, r1, r2⟩ ∧
    t.miso = s.miso.drop 24 ∧ t.misoDrawn = s.misoDrawn + 24

/-- R63: what DecDac reads, the round trip of every frame, and the other direction. -/
def Obligations.DacFrameRoundTrip : Prop :=
  (∀ b0 b1 : Byte, (decDac b0 b1).c.toNat = b0.toNat / 128 ∧ (decDac b0 b1).g = !b0.getLsbD 5 ∧
    (decDac b0 b1).e = b0.getLsbD 4 ∧ (decDac b0 b1).v.toNat = b0.toNat % 16 * 256 + b1.toNat) ∧
  (∀ (c : DacChan) (g e : Bool) (v : Code), decDac (encDac c g e v).1 (encDac c g e v).2 = ⟨c, g, e, v⟩) ∧
  ∀ b0 b1 : Byte,
    encDac (decDac b0 b1).c (decDac b0 b1).g (decDac b0 b1).e (decDac b0 b1).v = (b0 &&& 0xBF, b1) ∧
    (encDac (decDac b0 b1).c (decDac b0 b1).g (decDac b0 b1).e (decDac b0 b1).v = (b0, b1) ↔ b0.getLsbD 6 = false)

/-- R72: the sample is the low four bits of `r1` and all of `r2`; `r0` and the rest of `r1` do not matter. -/
def Obligations.AdcResponseDecoding : Prop :=
  ∀ r : ByteBuf, (decAdc r).toNat = r.b1.toNat % 16 * 256 + r.b2.toNat

/-- R80: while DISABLED every DAC frame a step adds to the history has its channel-enable bit 0. The premise Settled
leaves out states inside a transfer that was accepted earlier; `SettledIsKept` states that steps keep it. -/
def Obligations.DisabledFramesHaveTheChannelOff : Prop :=
  ∀ s t : State, s.Settled → s.ports.rst = false → s.btn.enabled = false → step s = .next t →
    ∃ new, t.spiLog = s.spiLog ++ new ∧ ∀ ev ∈ new, ev.channelOff

/-- R22: the history only grows, unless the step is a reset (log entry 14); by at most one event a step, since a whole
transfer is one step (log entry 1). -/
def Obligations.HistoryOnlyGrows : Prop :=
  ∀ s t : State, s.ports.rst = false → step s = .next t →
    ∃ new, t.spiLog = s.spiLog ++ new ∧ new.length ≤ 1

/-- R22: the DAC's view of a channel is the last frame for that channel, and there is none before any. -/
def Obligations.DacViewIsTheLastFrame : Prop :=
  (∀ c, dacView [] c = none) ∧
  (∀ (log : List SpiEvent) (b0 b1 : Byte) (c : DacChan), dacView (log ++ [.dacFrame b0 b1]) c =
    if b0.extractLsb' 7 1 = c then some (decDac b0 b1) else dacView log c) ∧
  ∀ (log : List SpiEvent) (t0 t1 t2 r0 r1 r2 : Byte) (c : DacChan),
    dacView (log ++ [.adcXfer t0 t1 t2 r0 r1 r2]) c = dacView log c

/-- R54: the pseudo-operation DACSET leaves the DAC with the calibrated code for its channel, gated. -/
def Obligations.DacsetProgramsTheCalibratedCode : Prop :=
  ∀ (ch : DacChan) (t : Target) (g e : Bool) (s : State), ∃ (u w : State) (r : RspWord),
    exec (dacsetFirst ch t) s = .next u ∧ u.rsp = some r ∧ exec (dacsetSecond ch g e r) u = .next w ∧
    dacView w.spiLog ch = some ⟨ch, g, e && s.btn.enabled, if ch = 0 then dac0Code t else dac1Code t⟩

/-- R54: the pseudo-operation ADCMV sends the query, receives the next three free bytes, logs both, and answers the
millivolts of the sample in those bytes. That the bytes are the next of the MISO input is the model's own (log entry 5). -/
def Obligations.AdcmvConvertsTheSampleItTook : Prop :=
  ∀ (ch : AdcChan) (s : State), ∃ (u w : State) (r : RspWord) (t1 r0 r1 r2 : Byte) (raw : Nat),
    exec (adcmvFirst ch) s = .next u ∧ u.rsp = some r ∧ exec (adcmvSecond ch r) u = .next w ∧
    t1.toNat = ch.toNat * 64 ∧
    r0 = rxByte s ∧ r1 = rxByte (rxAdvance s) ∧ r2 = rxByte (rxAdvance (rxAdvance s)) ∧
    u.spiLog = s.spiLog ++ [.adcXfer 0x06#8 t1 0x00#8 r0 r1 r2] ∧ w.spiLog = u.spiLog ∧
    raw = r1.toNat % 16 * 256 + r2.toNat ∧
    w.rsp = some (rspWord false (BitVec.ofNat 16 (if ch = 1 then raw * 265 / 100 else raw)))

/-- R54, R19: the pseudo-operation POLL answers the three status words and clears the three flags. -/
def Obligations.PollReportsAllThreeWords : Prop :=
  ∀ s : State, ∃ (a b c : Instr) (t u w : State), poll = [a, b, c] ∧
    exec a s = .next t ∧ exec b t = .next u ∧ exec c u = .next w ∧
    t.rsp = some (s.encStatus 0) ∧ u.rsp = some (s.encStatus 1) ∧ w.rsp = some s.btnStatus ∧
    (∀ i, w.enc i = { s.enc i with changed := false }) ∧ w.btn = { s.btn with changed := false } ∧ SameWire s w

/-! ### Invariants -/

/-- R49, R50: everything sent and everything latched stays a frame of the two wire formats. -/
def Obligations.WireInvariantIsKept : Prop :=
  ∀ s t : State, s.WireInv → step s = .next t → t.WireInv

/-- The wire invariant holds after reset. -/
def Obligations.WireInvariantAtReset : Prop := State.reset.WireInv

/-- R6, R20: no step leaves a transfer under way, except a tick that falls inside one; that a step finishes a transfer it
finds under way is the model's own (log entry 1). -/
def Obligations.SettledIsKept : Prop :=
  ∀ s t : State, step s = .next t →
    (s.Settled → t.Settled) ∧ (¬ t.Settled → s.ports.rst = false ∧ s.ports.tick ≠ none ∧ t.seq = s.seq)

/-- R20, R35, R89: a tick inside a transfer and the rest of the transfer do not disturb each other: the frame, the
received bytes, the sample answered and the history are those of the transfer without the tick, and the Shared Control
State is that of the tick alone. The model's own: the rest of the transfer as one step (log entry 1), the clocks as a
list of which that step consumes none (log entries 2, 16), and the buffers compared after the transfer (log entry 22). -/
def Obligations.TickInsideATransferDisturbsNothing : Prop :=
  ∀ (s : State) (v : TickVec) (rest : List Clock), s.seq ≠ .idle → s.clocks = tickClock v :: Clock.quiet :: rest →
    ∃ t u k, Sys2Proof.core.run 2 s = .next t ∧ step { s with clocks := Clock.quiet :: rest } = .next u ∧
      exec (decodeTick v) s = .next k ∧ SameWire u t ∧ t.rsp = u.rsp ∧ SameInputs u t ∧ SameControl k t

/-! ### Encodings -/

/-- A few words written out from Table 30-1 and the frame layouts decode to their instructions. The bits are the
spec's; that a number of 8 bits is a TICK vector and a 24-bit number of the shape of an ADC query the wire word, where
R52 goes by the chip select, is the model's choice (log entry 10). -/
def Obligations.WrittenWordsDecode : Prop :=
  decodeTableWord 8 0b11000 = some (.tick true true false false false) ∧
  decodeTableWord 24 0x100001 = some (.rdenc 1) ∧ decodeTableWord 24 0x200000 = some .rdbtn ∧
  decodeTableWord 24 0x301D4C = some (.caldac0 7500) ∧ decodeTableWord 24 0x31FFFF = some (.caldac1 (BitVec.ofInt 16 (-1))) ∧
  decodeTableWord 24 0x4013E8 = some (.caladc1 1000) ∧ decodeTableWord 24 0x50BABC = some (.dacwr 1 true true 0xABC) ∧
  decodeTableWord 24 0x600002 = some (.adcrd 2) ∧ decodeTableWord 16 0x9ABC = some (.dacFrame 1 true true 0xABC) ∧
  decodeTableWord 24 0x068000 = some (.adcFrame 2)

/-- Decode of encode of every instruction is that instruction, for every operand value. -/
def Obligations.DecodeOfEncode : Prop := ∀ i : Instr, decode (encode i) = .ok i

/-- Every word that decodes is the encoding of what it decodes to: no second spelling, no bit ignored. For commands,
ticks and ADC queries this follows R42, R48, R50, R51. For DAC wire words it is the model's choice (log entry 11): the
wire decoder rejects bit 14 = 1, which the block never sends, where DecDac, the DAC's reading in R49 and R63, ignores
that bit (`DacFrameRoundTrip`). -/
def Obligations.EncodeOfDecode : Prop := ∀ (r : RawWord) (i : Instr), decode r = .ok i → encode i = r

/-- R43, R48, R51: a command word decodes exactly when it matches a row of the command table. -/
def Obligations.CommandDecodesIffItMatchesARow : Prop :=
  ∀ w : CmdWord, (∃ i, decode (.cmd w) = .ok i) ↔ ∃ r ∈ cmdRows, w.toNat &&& r.mask = r.pattern

/-- R53: exactly the well-formed text lines assemble, and the text of every command and of TICK assembles back. -/
def Obligations.TextFormAgrees : Prop :=
  (∀ l : AsmLine, (∃ i, assemble l = some i) ↔ l.wellFormed = true) ∧
  (∀ (i : Instr) (l : AsmLine), disassemble i = some l → assemble l = some i) ∧
  ∀ (l : AsmLine) (i : Instr), assemble l = some i → disassemble i = some l

/-! ### Pins and the wire -/

/-- R16, R21, R78, R79, R81: the output pins in each enable state, the chip selects, and the SPI lines while idle;
R20, R82: `cmd_ready`. -/
def Obligations.OutputPinsFollowTheState : Prop :=
  ∀ s : State, (s.oe = .ENABLED ↔ s.btn.enabled = true) ∧
    (s.oe = .DISABLED → s.ledDis = true ∧ s.regEn = some false) ∧
    (s.oe = .ENABLED → s.ledDis = false ∧ s.regEn = some true) ∧
    (s.csDacN = false ↔ s.seq = .dacB0 ∨ s.seq = .dacB1) ∧
    (s.csAdcN = false ↔ s.seq = .adcB0 ∨ s.seq = .adcB1 ∨ s.seq = .adcB2) ∧
    ¬ (s.csDacN = false ∧ s.csAdcN = false) ∧
    (s.seq = .idle → s.idleLines = some (false, false)) ∧ (s.cmdReady = true ↔ s.csDacN = true ∧ s.csAdcN = true)

/-- R20: the sequencer never skips, repeats or abandons a byte. -/
def Obligations.SequencerWalksEveryByte : Prop :=
  ∀ s : State, (byteStep s).seq =
    (match s.seq with
      | .idle => .idle | .dacB0 => .dacB1 | .dacB1 => .idle | .adcB0 => .adcB1 | .adcB1 => .adcB2 | .adcB2 => .idle) ∧
    (∀ b0 b1, (startDac b0 b1 s).seq = .dacB0) ∧ ∀ t, (startAdc t s).seq = .adcB0

/-- R27, R28, R32: whatever the margins, a receiver that samples `spi_mosi` at the rising edges of `spi_sclk` sees
exactly the bits of the bytes sent, in order, most significant bit first. -/
def Obligations.WaveformCarriesTheBytes : Prop :=
  ∀ (d : Dev) (x : Nat) (bytes : List Byte), risingBits false (frameWave d x bytes) = bytes.flatMap bitsMsbFirst

/-- R27: eight bits sampled first bit highest give the byte back. -/
def Obligations.SampledBitsGiveTheByte : Prop := ∀ b : Byte, byteOfBits (bitsMsbFirst b) = b

/-- R29, R30, R32: one assertion of the chip select of the one device covers the whole transfer, and the other device
is never selected in it. -/
def Obligations.ChipSelectHeldForTheWholeFrame : Prop :=
  ∀ (d : Dev) (x : Nat) (bytes : List Byte), ∀ p ∈ frameWave d x bytes,
    (p.csDacN = false ↔ d = .dac) ∧ (p.csAdcN = false ↔ d = .adc)

/-- R32, R105: a transfer of n bytes lasts 32 n system clocks and its margins: at least 64 for a DAC frame and 96 for
an ADC transfer, for every value of the open margins. -/
def Obligations.TransferLength : Prop :=
  (∀ (d : Dev) (x : Nat) (b : Byte) (bs : List Byte), (frameWave d x (b :: bs)).length =
    Config.tCss + 32 * (bs.length + 1) + bs.length * Config.tIbg + Config.tCsh) ∧
  ∀ (x : Nat) (ev : SpiEvent),
    (ev.dev = .dac → 64 ≤ (ev.wave x).length) ∧ (ev.dev = .adc → 96 ≤ (ev.wave x).length)

/-- R27, R32: the block samples `spi_miso` once a bit, at the rising edge of `spi_sclk`, and the first bit sampled in a
byte is its bit 7: bit `7 - j` of received byte `k` is the level of `spi_miso` in the clock of the `j`-th rising edge of
that byte, whatever `spi_miso` shows. Which clock the edge stands for is log entry 23. -/
def Obligations.MisoIsSampledMsbFirst : Prop :=
  ∀ (d : Dev) (x : Nat) (m : Nat → Bool) (bytes : List Byte),
    (receivedBytes (frameBus d x m bytes)).length = bytes.length ∧
    ∀ k j : Nat, k < bytes.length → j < 8 → ∃ r : Byte, (receivedBytes (frameBus d x m bytes))[k]? = some r ∧
      r.getLsbD (7 - j) = m (Config.tCss + k * (32 + Config.tIbg) + 4 * j + 2)

/-- R31, R32, R74: ADCRD receives exactly the bytes that `spi_miso` shows over the waveform of its query, and its event
keeps them; and whatever bytes an ADC event holds, some levels of `spi_miso` over its waveform give them. The MISO input
as a list is the model's own (log entry 5). -/
def Obligations.AdcrdReceivesWhatTheBusShows : Prop :=
  (∀ (ch : AdcChan) (x : Nat) (m : Nat → Bool) (rest : List Bool) (s : State),
    s.miso = risingMiso false (frameBus .adc x m [0x06#8, ch ++ 0#6, 0x00#8]) ++ rest →
    ∃ (t : State) (r0 r1 r2 : Byte), exec (.adcrd ch) s = .next t ∧
      t.spiLog = s.spiLog ++ [.adcXfer 0x06#8 (ch ++ 0#6) 0x00#8 r0 r1 r2] ∧
      receivedBytes ((SpiEvent.adcXfer 0x06#8 (ch ++ 0#6) 0x00#8 r0 r1 r2).bus x m) = [r0, r1, r2] ∧
      t.miso = rest ∧ t.rsp = some (rspWord false (BitVec.ofNat 16 (r1.toNat % 16 * 256 + r2.toNat)))) ∧
  ∀ (x : Nat) (ev : SpiEvent), ev.dev = .adc → ∃ m, receivedBytes (ev.bus x m) = ev.received
end

