-- ==== Sys2Proof/Laws/State.lean ====
section
/-! SUPPORT. One lemma per field per state update of Machine/Flags.lean and Machine/Ops.lean, so that no later proof
unfolds a record update. -/

namespace Sys2Proof.Machine

@[simp] theorem respond_enc0 (f : Bool) (d : BitVec 16) (s : State) : (respond f d s).enc0 = s.enc0 := rfl
@[simp] theorem respond_enc1 (f : Bool) (d : BitVec 16) (s : State) : (respond f d s).enc1 = s.enc1 := rfl
@[simp] theorem respond_btn (f : Bool) (d : BitVec 16) (s : State) : (respond f d s).btn = s.btn := rfl
@[simp] theorem respond_seq (f : Bool) (d : BitVec 16) (s : State) : (respond f d s).seq = s.seq := rfl
@[simp] theorem respond_txbuf (f : Bool) (d : BitVec 16) (s : State) : (respond f d s).txbuf = s.txbuf := rfl
@[simp] theorem respond_rxbuf (f : Bool) (d : BitVec 16) (s : State) : (respond f d s).rxbuf = s.rxbuf := rfl
@[simp] theorem respond_rsp (f : Bool) (d : BitVec 16) (s : State) : (respond f d s).rsp = some (rspWord f d) := rfl
@[simp] theorem respond_spiLog (f : Bool) (d : BitVec 16) (s : State) : (respond f d s).spiLog = s.spiLog := rfl
@[simp] theorem respond_clocks (f : Bool) (d : BitVec 16) (s : State) : (respond f d s).clocks = s.clocks := rfl
@[simp] theorem respond_miso (f : Bool) (d : BitVec 16) (s : State) : (respond f d s).miso = s.miso := rfl
@[simp] theorem respond_misoDrawn (f : Bool) (d : BitVec 16) (s : State) : (respond f d s).misoDrawn = s.misoDrawn := rfl

@[simp] theorem endResponse_enc0 (s : State) : (endResponse s).enc0 = s.enc0 := rfl
@[simp] theorem endResponse_enc1 (s : State) : (endResponse s).enc1 = s.enc1 := rfl
@[simp] theorem endResponse_btn (s : State) : (endResponse s).btn = s.btn := rfl
@[simp] theorem endResponse_seq (s : State) : (endResponse s).seq = s.seq := rfl
@[simp] theorem endResponse_txbuf (s : State) : (endResponse s).txbuf = s.txbuf := rfl
@[simp] theorem endResponse_rxbuf (s : State) : (endResponse s).rxbuf = s.rxbuf := rfl
@[simp] theorem endResponse_rsp (s : State) : (endResponse s).rsp = none := rfl
@[simp] theorem endResponse_spiLog (s : State) : (endResponse s).spiLog = s.spiLog := rfl
@[simp] theorem endResponse_clocks (s : State) : (endResponse s).clocks = s.clocks := rfl
@[simp] theorem endResponse_miso (s : State) : (endResponse s).miso = s.miso := rfl
@[simp] theorem endResponse_misoDrawn (s : State) : (endResponse s).misoDrawn = s.misoDrawn := rfl

@[simp] theorem popClock_enc0 (s : State) : (popClock s).enc0 = s.enc0 := rfl
@[simp] theorem popClock_enc1 (s : State) : (popClock s).enc1 = s.enc1 := rfl
@[simp] theorem popClock_btn (s : State) : (popClock s).btn = s.btn := rfl
@[simp] theorem popClock_seq (s : State) : (popClock s).seq = s.seq := rfl
@[simp] theorem popClock_txbuf (s : State) : (popClock s).txbuf = s.txbuf := rfl
@[simp] theorem popClock_rxbuf (s : State) : (popClock s).rxbuf = s.rxbuf := rfl
@[simp] theorem popClock_rsp (s : State) : (popClock s).rsp = s.rsp := rfl
@[simp] theorem popClock_spiLog (s : State) : (popClock s).spiLog = s.spiLog := rfl
@[simp] theorem popClock_clocks (s : State) : (popClock s).clocks = s.clocks.tail := rfl
@[simp] theorem popClock_miso (s : State) : (popClock s).miso = s.miso := rfl
@[simp] theorem popClock_misoDrawn (s : State) : (popClock s).misoDrawn = s.misoDrawn := rfl

@[simp] theorem rxAdvance_enc0 (s : State) : (rxAdvance s).enc0 = s.enc0 := rfl
@[simp] theorem rxAdvance_enc1 (s : State) : (rxAdvance s).enc1 = s.enc1 := rfl
@[simp] theorem rxAdvance_btn (s : State) : (rxAdvance s).btn = s.btn := rfl
@[simp] theorem rxAdvance_seq (s : State) : (rxAdvance s).seq = s.seq := rfl
@[simp] theorem rxAdvance_txbuf (s : State) : (rxAdvance s).txbuf = s.txbuf := rfl
@[simp] theorem rxAdvance_rxbuf (s : State) : (rxAdvance s).rxbuf = s.rxbuf := rfl
@[simp] theorem rxAdvance_rsp (s : State) : (rxAdvance s).rsp = s.rsp := rfl
@[simp] theorem rxAdvance_spiLog (s : State) : (rxAdvance s).spiLog = s.spiLog := rfl
@[simp] theorem rxAdvance_clocks (s : State) : (rxAdvance s).clocks = s.clocks := rfl
@[simp] theorem rxAdvance_miso (s : State) : (rxAdvance s).miso = s.miso.drop 8 := rfl
@[simp] theorem rxAdvance_misoDrawn (s : State) : (rxAdvance s).misoDrawn = s.misoDrawn + 8 := rfl

@[simp] theorem startDac_enc0 (b0 b1 : Byte) (s : State) : (startDac b0 b1 s).enc0 = s.enc0 := rfl
@[simp] theorem startDac_enc1 (b0 b1 : Byte) (s : State) : (startDac b0 b1 s).enc1 = s.enc1 := rfl
@[simp] theorem startDac_btn (b0 b1 : Byte) (s : State) : (startDac b0 b1 s).btn = s.btn := rfl
@[simp] theorem startDac_seq (b0 b1 : Byte) (s : State) : (startDac b0 b1 s).seq = .dacB0 := rfl
@[simp] theorem startDac_txbuf (b0 b1 : Byte) (s : State) : (startDac b0 b1 s).txbuf = { s.txbuf with b0 := b0, b1 := b1 } := rfl
@[simp] theorem startDac_rxbuf (b0 b1 : Byte) (s : State) : (startDac b0 b1 s).rxbuf = s.rxbuf := rfl
@[simp] theorem startDac_rsp (b0 b1 : Byte) (s : State) : (startDac b0 b1 s).rsp = s.rsp := rfl
@[simp] theorem startDac_spiLog (b0 b1 : Byte) (s : State) : (startDac b0 b1 s).spiLog = s.spiLog := rfl
@[simp] theorem startDac_clocks (b0 b1 : Byte) (s : State) : (startDac b0 b1 s).clocks = s.clocks := rfl
@[simp] theorem startDac_miso (b0 b1 : Byte) (s : State) : (startDac b0 b1 s).miso = s.miso := rfl
@[simp] theorem startDac_misoDrawn (b0 b1 : Byte) (s : State) : (startDac b0 b1 s).misoDrawn = s.misoDrawn := rfl

@[simp] theorem startAdc_enc0 (t : ByteBuf) (s : State) : (startAdc t s).enc0 = s.enc0 := rfl
@[simp] theorem startAdc_enc1 (t : ByteBuf) (s : State) : (startAdc t s).enc1 = s.enc1 := rfl
@[simp] theorem startAdc_btn (t : ByteBuf) (s : State) : (startAdc t s).btn = s.btn := rfl
@[simp] theorem startAdc_seq (t : ByteBuf) (s : State) : (startAdc t s).seq = .adcB0 := rfl
@[simp] theorem startAdc_txbuf (t : ByteBuf) (s : State) : (startAdc t s).txbuf = t := rfl
@[simp] theorem startAdc_rxbuf (t : ByteBuf) (s : State) : (startAdc t s).rxbuf = s.rxbuf := rfl
@[simp] theorem startAdc_rsp (t : ByteBuf) (s : State) : (startAdc t s).rsp = s.rsp := rfl
@[simp] theorem startAdc_spiLog (t : ByteBuf) (s : State) : (startAdc t s).spiLog = s.spiLog := rfl
@[simp] theorem startAdc_clocks (t : ByteBuf) (s : State) : (startAdc t s).clocks = s.clocks := rfl
@[simp] theorem startAdc_miso (t : ByteBuf) (s : State) : (startAdc t s).miso = s.miso := rfl
@[simp] theorem startAdc_misoDrawn (t : ByteBuf) (s : State) : (startAdc t s).misoDrawn = s.misoDrawn := rfl

@[simp] theorem clearBtnChanged_enc0 (s : State) : (State.clearBtnChanged s).enc0 = s.enc0 := rfl
@[simp] theorem clearBtnChanged_enc1 (s : State) : (State.clearBtnChanged s).enc1 = s.enc1 := rfl
@[simp] theorem clearBtnChanged_btn (s : State) : (State.clearBtnChanged s).btn = { s.btn with changed := false } := rfl
@[simp] theorem clearBtnChanged_seq (s : State) : (State.clearBtnChanged s).seq = s.seq := rfl
@[simp] theorem clearBtnChanged_txbuf (s : State) : (State.clearBtnChanged s).txbuf = s.txbuf := rfl
@[simp] theorem clearBtnChanged_rxbuf (s : State) : (State.clearBtnChanged s).rxbuf = s.rxbuf := rfl
@[simp] theorem clearBtnChanged_rsp (s : State) : (State.clearBtnChanged s).rsp = s.rsp := rfl
@[simp] theorem clearBtnChanged_spiLog (s : State) : (State.clearBtnChanged s).spiLog = s.spiLog := rfl
@[simp] theorem clearBtnChanged_clocks (s : State) : (State.clearBtnChanged s).clocks = s.clocks := rfl
@[simp] theorem clearBtnChanged_miso (s : State) : (State.clearBtnChanged s).miso = s.miso := rfl
@[simp] theorem clearBtnChanged_misoDrawn (s : State) : (State.clearBtnChanged s).misoDrawn = s.misoDrawn := rfl

@[simp] theorem setEnc_btn (i : EncIdx) (e : Encoder) (s : State) : (s.setEnc i e).btn = s.btn := by
  unfold State.setEnc; split <;> rfl
@[simp] theorem setEnc_seq (i : EncIdx) (e : Encoder) (s : State) : (s.setEnc i e).seq = s.seq := by
  unfold State.setEnc; split <;> rfl
@[simp] theorem setEnc_txbuf (i : EncIdx) (e : Encoder) (s : State) : (s.setEnc i e).txbuf = s.txbuf := by
  unfold State.setEnc; split <;> rfl
@[simp] theorem setEnc_rxbuf (i : EncIdx) (e : Encoder) (s : State) : (s.setEnc i e).rxbuf = s.rxbuf := by
  unfold State.setEnc; split <;> rfl
@[simp] theorem setEnc_rsp (i : EncIdx) (e : Encoder) (s : State) : (s.setEnc i e).rsp = s.rsp := by
  unfold State.setEnc; split <;> rfl
@[simp] theorem setEnc_spiLog (i : EncIdx) (e : Encoder) (s : State) : (s.setEnc i e).spiLog = s.spiLog := by
  unfold State.setEnc; split <;> rfl
@[simp] theorem setEnc_miso (i : EncIdx) (e : Encoder) (s : State) : (s.setEnc i e).miso = s.miso := by
  unfold State.setEnc; split <;> rfl
@[simp] theorem setEnc_misoDrawn (i : EncIdx) (e : Encoder) (s : State) : (s.setEnc i e).misoDrawn = s.misoDrawn := by
  unfold State.setEnc; split <;> rfl
@[simp] theorem setEnc_clocks (i : EncIdx) (e : Encoder) (s : State) : (s.setEnc i e).clocks = s.clocks := by
  unfold State.setEnc; split <;> rfl

/-- Reading the encoder just written gives what was written. -/
@[simp] theorem setEnc_enc (i : EncIdx) (e : Encoder) (s : State) : (s.setEnc i e).enc i = e := by
  unfold State.setEnc State.enc; split <;> rfl

/-- There are two encoders (R7). -/
theorem encIdx_cases (i : EncIdx) : i = 0 ∨ i = 1 := by
  have h := i.isLt
  rcases Nat.lt_or_ge i.toNat 1 with h0 | h1
  · exact .inl (BitVec.eq_of_toNat_eq (by simp; omega))
  · exact .inr (BitVec.eq_of_toNat_eq (by simp; omega))

/-- Writing one encoder leaves the other alone. -/
theorem setEnc_enc_of_ne (i j : EncIdx) (h : j ≠ i) (e : Encoder) (s : State) : (s.setEnc i e).enc j = s.enc j := by
  rcases encIdx_cases i with rfl | rfl <;> rcases encIdx_cases j with rfl | rfl
  · exact absurd rfl h
  · rfl
  · rfl
  · exact absurd rfl h

@[simp] theorem enc_zero (s : State) : s.enc 0 = s.enc0 := rfl
@[simp] theorem enc_one (s : State) : s.enc 1 = s.enc1 := rfl
@[simp] theorem respond_enc (f : Bool) (d : BitVec 16) (s : State) (i : EncIdx) : (respond f d s).enc i = s.enc i := rfl

@[simp] theorem takeTick_enc0 (s : State) : (takeTick s).enc0 = s.enc0 := by unfold takeTick; split <;> rfl
@[simp] theorem takeTick_enc1 (s : State) : (takeTick s).enc1 = s.enc1 := by unfold takeTick; split <;> rfl
@[simp] theorem takeTick_btn (s : State) : (takeTick s).btn = s.btn := by unfold takeTick; split <;> rfl
@[simp] theorem takeTick_seq (s : State) : (takeTick s).seq = s.seq := by unfold takeTick; split <;> rfl
@[simp] theorem takeTick_txbuf (s : State) : (takeTick s).txbuf = s.txbuf := by unfold takeTick; split <;> rfl
@[simp] theorem takeTick_rxbuf (s : State) : (takeTick s).rxbuf = s.rxbuf := by unfold takeTick; split <;> rfl
@[simp] theorem takeTick_rsp (s : State) : (takeTick s).rsp = s.rsp := by unfold takeTick; split <;> rfl
@[simp] theorem takeTick_spiLog (s : State) : (takeTick s).spiLog = s.spiLog := by unfold takeTick; split <;> rfl
@[simp] theorem takeTick_miso (s : State) : (takeTick s).miso = s.miso := by unfold takeTick; split <;> rfl
@[simp] theorem takeTick_misoDrawn (s : State) : (takeTick s).misoDrawn = s.misoDrawn := by unfold takeTick; split <;> rfl

end Sys2Proof.Machine
end

