-- ==== Sys2Proof/Laws/Ops.lean ====
section
/-! SUPPORT. One lemma per shared operation that says everything it does; proofs cite these instead of unfolding the
operations. -/

namespace Sys2Proof.Machine

@[simp] theorem afterNext_next (f : State → State) (s : State) : afterNext f (.next s) = .next (f s) := rfl

theorem done_eq (s : State) : done s = .next s := rfl

/-- The walk of a DAC frame: only the latch, the sequencer and the history move. -/
theorem spiXferDac_eq (b : Byte × Byte) (s : State) :
    spiXferDac b s = { s with
      seq := .idle
      txbuf := { s.txbuf with b0 := b.1, b1 := b.2 }
      spiLog := s.spiLog ++ [.dacFrame b.1 b.2] } := rfl

/-- The three bytes the next ADC transfer receives. -/
def rxBytes (s : State) : ByteBuf := ⟨rxByte s, rxByte (rxAdvance s), rxByte (rxAdvance (rxAdvance s))⟩

/-- The walk of an ADC query. -/
theorem spiXferAdc_eq (t : ByteBuf) (s : State) :
    spiXferAdc t s = { s with
      seq := .idle
      txbuf := t
      rxbuf := rxBytes s
      spiLog := s.spiLog ++ [.adcXfer t.b0 t.b1 t.b2 (rxBytes s).b0 (rxBytes s).b1 (rxBytes s).b2]
      miso := ((s.miso.drop 8).drop 8).drop 8
      misoDrawn := s.misoDrawn + 8 + 8 + 8 } := rfl

@[simp] theorem runXfer_seq (s : State) : (runXfer s).seq = .idle := by
  rcases s with ⟨_, _, _, q, _⟩; cases q <;> rfl

/-- A transfer touches nothing of the Shared Control State (R20). -/
@[simp] theorem byteStep_enc0 (s : State) : (byteStep s).enc0 = s.enc0 := by unfold byteStep; split <;> rfl
@[simp] theorem byteStep_enc1 (s : State) : (byteStep s).enc1 = s.enc1 := by unfold byteStep; split <;> rfl
@[simp] theorem byteStep_btn (s : State) : (byteStep s).btn = s.btn := by unfold byteStep; split <;> rfl
@[simp] theorem byteStep_txbuf (s : State) : (byteStep s).txbuf = s.txbuf := by unfold byteStep; split <;> rfl
@[simp] theorem byteStep_rsp (s : State) : (byteStep s).rsp = s.rsp := by unfold byteStep; split <;> rfl
@[simp] theorem byteStep_clocks (s : State) : (byteStep s).clocks = s.clocks := by unfold byteStep; split <;> rfl
@[simp] theorem runXfer_enc0 (s : State) : (runXfer s).enc0 = s.enc0 := by simp [runXfer]
@[simp] theorem runXfer_enc1 (s : State) : (runXfer s).enc1 = s.enc1 := by simp [runXfer]
@[simp] theorem runXfer_btn (s : State) : (runXfer s).btn = s.btn := by simp [runXfer]
@[simp] theorem runXfer_txbuf (s : State) : (runXfer s).txbuf = s.txbuf := by simp [runXfer]
@[simp] theorem runXfer_clocks (s : State) : (runXfer s).clocks = s.clocks := by simp [runXfer]

/-- `complete` is a response and nothing else. -/
theorem complete_eq (d : Dev) (s : State) : ∃ data, complete d s = respond false data s := by
  cases d
  · exact ⟨_, rfl⟩
  · exact ⟨_, rfl⟩

/-- `exec` always answers a next state: every operation is total (R86). -/
theorem exec_next (i : Instr) (s : State) : ∃ t, exec i s = .next t := by
  cases i <;> exact ⟨_, rfl⟩

/-- Everything the choice of the next input can be. -/
theorem take_cases (s : State) :
    (s.ports.rst = true ∧ take s = .reset) ∨
    (s.ports.rst = false ∧ ∃ v, s.ports.tick = some v ∧ take s = .instr (decodeTick v) (takeTick s) none) ∨
    (s.ports.rst = false ∧ s.ports.tick = none ∧ ∃ d, s.seq.dev = some d ∧ take s = takeBusy d s) ∨
    (s.ports.rst = false ∧ s.ports.tick = none ∧ s.seq.dev = none ∧ take s = takeCommand s) := by
  unfold take
  cases hr : s.ports.rst
  · cases ht : s.ports.tick with
    | some v => exact .inr (.inl ⟨rfl, v, rfl, by simp⟩)
    | none =>
      cases hd : s.seq.dev with
      | some d => exact .inr (.inr (.inl ⟨rfl, rfl, d, rfl, by simp⟩))
      | none => exact .inr (.inr (.inr ⟨rfl, rfl, rfl, by simp⟩))
  · exact .inl ⟨rfl, by simp⟩

/-- Everything an idle port can do with what stands on it. -/
theorem takeCommand_cases (s : State) :
    (s.ports.cmd = none ∧ takeCommand s = .other (popClock s)) ∨
    (∃ w i, s.ports.cmd = some w ∧ decodeCmd w = .ok i ∧ takeCommand s = .instr i (popClock s) none) ∨
    (∃ w e, s.ports.cmd = some w ∧ decodeCmd w = .rejected e ∧
      takeCommand s = .other (respond false 0 (popClock s))) := by
  unfold takeCommand decode
  cases hc : s.ports.cmd with
  | none => exact .inl ⟨rfl, rfl⟩
  | some w =>
    cases hd : decodeCmd w with
    | ok i => exact .inr (.inl ⟨w, i, rfl, hd, by simp [hd]⟩)
    | rejected e => exact .inr (.inr ⟨w, e, rfl, hd, by simp [hd]⟩)

/-- Everything a transfer under way can do. -/
theorem takeBusy_cases (d : Dev) (s : State) :
    (∃ r i, latchedFrame s = some r ∧ decode r = .ok i ∧ takeBusy d s = .instr i s (some d)) ∨
    takeBusy d s = .other (complete d (runXfer s)) := by
  unfold takeBusy
  cases hl : latchedFrame s with
  | none => exact .inr rfl
  | some r =>
    cases hd : decode r with
    | ok i => exact .inl ⟨r, i, rfl, hd, by simp [hd]⟩
    | rejected e => exact .inr (by simp [hd])

/-- The response word splits into its flag and its data (R44). -/
theorem rspWord_flag (f : Bool) (d : BitVec 16) : (rspWord f d).getLsbD 16 = f := by
  unfold rspWord; rw [BitVec.getLsbD_append]; cases f <;> simp

/-- `clamp` stays in its bounds (R10). -/
theorem clamp_mem (z lo hi : Int) (h : lo ≤ hi) : lo ≤ clamp z lo hi ∧ clamp z lo hi ≤ hi := by
  unfold clamp; split
  · omega
  · split <;> omega

/-- The clamped code as a number: nothing is lost by the 12-bit word (R66). -/
theorem clampCode_toNat (q : Int) : ((clampCode q).toNat : Int) = clamp q 0 4095 := by
  have h := clamp_mem q 0 4095 (by decide)
  unfold clampCode Config.codeMax
  rw [BitVec.toNat_ofInt, Int.toNat_of_nonneg (Int.emod_nonneg _ (by decide))]
  exact Int.emod_eq_of_lt h.1 (by omega)

/-- The saturating count as a number (R10, R56). -/
theorem satInc8_toNat (u : BitVec 8) : (satInc8 u).toNat = min (u.toNat + 1) 255 := by
  have h := u.isLt
  unfold satInc8; split
  · rw [BitVec.toNat_ofNat, Nat.mod_eq_of_lt (by omega)]; omega
  · simp; omega

end Sys2Proof.Machine
end

