-- ==== Sys2Proof/Laws/PerInstr.lean ====
section
/-! SUPPORT. The family RowMatch: every instruction's encoding belongs to its row of spec/opcode_table.json, that is,
the word masked with the row's mask is the row's match, whatever the operands (30_encoding.md R48). -/

namespace Sys2Proof.Laws.RowMatch

/-- `word AND mask = match` for the row of the instruction, on the lines that carry it. -/
def Statement (i : Instr) : Prop :=
  match encode i with
  | .tickv v => v &&& BitVec.ofNat 5 (opRow i).mask = BitVec.ofNat 5 (opRow i).pattern
  | .cmd w => w &&& BitVec.ofNat 24 (opRow i).mask = BitVec.ofNat 24 (opRow i).pattern
  | .dacf f => f &&& BitVec.ofNat 16 (opRow i).mask = BitVec.ofNat 16 (opRow i).pattern
  | .adcf q => q &&& BitVec.ofNat 24 (opRow i).mask = BitVec.ofNat 24 (opRow i).pattern

/-- Two words are equal if they agree bit by bit. -/
theorem eq_of_bits {n : Nat} (x y : BitVec n) (h : ∀ k, k < n → x.getLsbD k = y.getLsbD k) : x = y :=
  BitVec.eq_of_getLsbD_eq (fun k hk => h k hk)

theorem tick (n a0 b0 a1 b1 : Bool) : Statement (.tick n a0 b0 a1 b1) := by
  simp [Statement, encode, opRow]

theorem rdenc (i : EncIdx) : Statement (.rdenc i) := by
  refine eq_of_bits _ _ fun k hk => ?_
  rw [BitVec.getLsbD_and]
  interval_cases k <;> simp only [BitVec.getLsbD_append, opRow] <;> simp

theorem rdbtn : Statement .rdbtn := by simp [Statement, encode, opRow]

theorem caldac0 (t : Target) : Statement (.caldac0 t) := by
  refine eq_of_bits _ _ fun k hk => ?_
  rw [BitVec.getLsbD_and]
  interval_cases k <;> simp only [BitVec.getLsbD_append, opRow] <;> simp

theorem caldac1 (t : Target) : Statement (.caldac1 t) := by
  refine eq_of_bits _ _ fun k hk => ?_
  rw [BitVec.getLsbD_and]
  interval_cases k <;> simp only [BitVec.getLsbD_append, opRow] <;> simp

theorem caladc0 (raw : Code) : Statement (.caladc0 raw) := by
  refine eq_of_bits _ _ fun k hk => ?_
  rw [BitVec.getLsbD_and]
  interval_cases k <;> simp only [BitVec.getLsbD_append, opRow] <;> simp

theorem caladc1 (raw : Code) : Statement (.caladc1 raw) := by
  refine eq_of_bits _ _ fun k hk => ?_
  rw [BitVec.getLsbD_and]
  interval_cases k <;> simp only [BitVec.getLsbD_append, opRow] <;> simp

theorem caladc2 (raw : Code) : Statement (.caladc2 raw) := by
  refine eq_of_bits _ _ fun k hk => ?_
  rw [BitVec.getLsbD_and]
  interval_cases k <;> simp only [BitVec.getLsbD_append, opRow] <;> simp

theorem caladc3 (raw : Code) : Statement (.caladc3 raw) := by
  refine eq_of_bits _ _ fun k hk => ?_
  rw [BitVec.getLsbD_and]
  interval_cases k <;> simp only [BitVec.getLsbD_append, opRow] <;> simp

theorem dacwr (c : DacChan) (g e : Bool) (v : Code) : Statement (.dacwr c g e v) := by
  refine eq_of_bits _ _ fun k hk => ?_
  rw [BitVec.getLsbD_and]
  interval_cases k <;> simp only [BitVec.getLsbD_append, opRow] <;> simp

theorem adcrd (ch : AdcChan) : Statement (.adcrd ch) := by
  refine eq_of_bits _ _ fun k hk => ?_
  rw [BitVec.getLsbD_and]
  interval_cases k <;> simp only [BitVec.getLsbD_append, opRow] <;> simp

theorem dacFrame (c : DacChan) (g e : Bool) (v : Code) : Statement (.dacFrame c g e v) := by
  refine eq_of_bits _ _ fun k hk => ?_
  rw [BitVec.getLsbD_and]
  interval_cases k <;> simp only [BitVec.getLsbD_append, opRow] <;> simp

theorem adcFrame (ch : AdcChan) : Statement (.adcFrame ch) := by
  refine eq_of_bits _ _ fun k hk => ?_
  rw [BitVec.getLsbD_and]
  interval_cases k <;> simp only [BitVec.getLsbD_append, opRow] <;> simp

end Sys2Proof.Laws.RowMatch
end

