-- ==== Sys2Proof/Laws/Wire.lean ====
section
/-! SUPPORT. What sampling at the rising edges of `spi_sclk` gives on each piece of a waveform, for any line of the bus;
proofs about a transfer compose these along the waveform and never unfold a bit. -/

namespace Sys2Proof.Machine

/-- The first sample of a waveform, if any, has `spi_sclk` = 0. -/
def StartsLow (ps : List PinSample) : Prop := ∀ p, ps.head? = some p → p.sclk = false

/-- The levels of a line of the bus at the rising edges, from clock number `n` of the transfer on. -/
def edgesFrom (line : BusSample → Bool) (m : Nat → Bool) (prev : Bool) (n : Nat) (ps : List PinSample) : List Bool :=
  atRisingEdges (fun b => b.pins.sclk) line prev (onBus m n ps)

/-- `spi_miso` is one line of the bus. -/
theorem risingMiso_eq_edgesFrom (d : Dev) (x : Nat) (m : Nat → Bool) (bytes : List Byte) :
    risingMiso false (frameBus d x m bytes) = edgesFrom BusSample.miso m false 0 (frameWave d x bytes) := rfl

/-- `spi_mosi` is one line of the bus, whatever `spi_miso` shows. -/
theorem risingBits_eq_edgesFrom (m : Nat → Bool) (ps : List PinSample) (prev : Bool) (n : Nat) :
    risingBits prev ps = edgesFrom (fun b => b.pins.mosi) m prev n ps := by
  induction ps generalizing prev n with
  | nil => rfl
  | cons p ps ih =>
    simp only [risingBits, edgesFrom, onBus, atRisingEdges] at ih ⊢
    rw [ih p.sclk (n + 1)]

/-- Before a sample with `spi_sclk` = 0 the level of the clock before does not matter. -/
theorem edgesFrom_startsLow (line : BusSample → Bool) (m : Nat → Bool) (prev : Bool) (n : Nat) (ps : List PinSample)
    (h : StartsLow ps) : edgesFrom line m prev n ps = edgesFrom line m false n ps := by
  cases ps with
  | nil => rfl
  | cons p ps => simp [edgesFrom, onBus, atRisingEdges, h p rfl]

/-- One bit: one edge, in its third clock. -/
theorem edgesFrom_bitWave (line : BusSample → Bool) (m : Nat → Bool) (prev : Bool) (n : Nat) (d : Dev) (b : Bool)
    (tl : List PinSample) (h : StartsLow tl) :
    edgesFrom line m prev n (bitWave d b ++ tl) =
      line ⟨selected d true b, m (n + 2)⟩ :: edgesFrom line m false (n + 4) tl := by
  rw [← edgesFrom_startsLow line m true (n + 4) tl h]
  cases prev <;> rfl

theorem startsLow_bitWave (d : Dev) (b : Bool) (tl : List PinSample) : StartsLow (bitWave d b ++ tl) := by
  intro p hp; cases hp; rfl

theorem startsLow_byteWave (d : Dev) (b : Byte) (tl : List PinSample) : StartsLow (byteWave d b ++ tl) := by
  intro p hp; cases hp; rfl

/-- One byte: eight edges, four clocks apart, bit 7 at the first. -/
theorem edgesFrom_byteWave (line : BusSample → Bool) (m : Nat → Bool) (prev : Bool) (n : Nat) (d : Dev) (b : Byte)
    (tl : List PinSample) (h : StartsLow tl) :
    edgesFrom line m prev n (byteWave d b ++ tl) =
      (List.range 8).map (fun j => line ⟨selected d true (b.getLsbD (7 - j)), m (n + 4 * j + 2)⟩) ++
        edgesFrom line m false (n + 32) tl := by
  unfold byteWave bitsMsbFirst
  simp only [List.flatMap_cons, List.flatMap_nil, List.append_assoc, List.nil_append]
  iterate 7 rw [edgesFrom_bitWave line m _ _ d _ _ (startsLow_bitWave d _ _)]
  rw [edgesFrom_bitWave line m _ _ d _ tl h]
  rfl

theorem startsLow_marginWave (d : Dev) (x k c : Nat) (tl : List PinSample) (h : StartsLow tl) :
    StartsLow (marginWave d x k c ++ tl) := by
  cases c with
  | zero => exact h
  | succ c => intro p hp; rw [marginWave, List.range_succ_eq_map] at hp; cases hp; rfl

/-- A stretch with `spi_sclk` = 0 has no edge. -/
theorem edgesFrom_low (line : BusSample → Bool) (m : Nat → Bool) (low tl : List PinSample) (hl : ∀ p ∈ low, p.sclk = false)
    (h : StartsLow tl) (prev : Bool) (n : Nat) :
    edgesFrom line m prev n (low ++ tl) = edgesFrom line m false (n + low.length) tl := by
  induction low generalizing prev n with
  | nil => exact edgesFrom_startsLow line m prev n tl h
  | cons p low ih =>
    have hp : p.sclk = false := hl p (List.mem_cons_self ..)
    have := ih (fun q hq => hl q (List.mem_cons_of_mem _ hq)) false (n + 1)
    rw [List.length_cons, show n + (low.length + 1) = n + 1 + low.length by omega, ← this]
    simp [edgesFrom, onBus, atRisingEdges, hp]

/-- A margin has no edge. -/
theorem edgesFrom_marginWave (line : BusSample → Bool) (m : Nat → Bool) (prev : Bool) (n : Nat) (d : Dev) (x k c : Nat)
    (tl : List PinSample) (h : StartsLow tl) :
    edgesFrom line m prev n (marginWave d x k c ++ tl) = edgesFrom line m false (n + c) tl := by
  rw [edgesFrom_low line m _ tl ?_ h, marginWave, List.length_map, List.length_range]
  intro p hp
  obtain ⟨_, _, rfl⟩ := List.mem_map.1 hp
  rfl

/-- Eight bits are one byte. -/
theorem bytesOfBits_append (bits rest : List Bool) (h : bits.length = 8) :
    bytesOfBits (bits ++ rest) = byteOfBits bits :: bytesOfBits rest := by
  match bits, h with
  | [_, _, _, _, _, _, _, _], _ => rfl

end Sys2Proof.Machine
end

