-- ==== Sys2Proof/Tests/Slice0.lean ====
section
/-! SUPPORT. Tests: ill-formed lines refused, words written out from the spec's encodings, one-step vectors of
95_test_vectors.md (worked examples S and derived vectors), and a witness for the hypotheses of every obligation. -/

namespace Sys2Proof.Tests

open Sys2Proof Sys2Proof.Machine

/-! ### WellFormed: each check refuses (R42, R47, R53, R61, R70, R65) -/

theorem test_wf_tick_bit : (AsmLine.tick 2 0 0 0 0).wellFormed = false ∧ (AsmLine.tick 0 2 0 0 0).wellFormed = false ∧
    (AsmLine.tick 0 0 2 0 0).wellFormed = false ∧ (AsmLine.tick 0 0 0 2 0).wellFormed = false ∧
    (AsmLine.tick 0 0 0 0 2).wellFormed = false := by decide
theorem test_wf_enc_index : (AsmLine.rdenc 2).wellFormed = false := by decide
theorem test_wf_caldac_channel : (AsmLine.caldac 2 0).wellFormed = false := by decide
theorem test_wf_target_high : (AsmLine.caldac 0 32768).wellFormed = false := by decide
theorem test_wf_target_low : (AsmLine.caldac 1 (-32769)).wellFormed = false := by decide
theorem test_wf_caladc_channel : (AsmLine.caladc 4 0).wellFormed = false := by decide
theorem test_wf_caladc_code : (AsmLine.caladc 1 4096).wellFormed = false := by decide
theorem test_wf_dacwr_channel : (AsmLine.dacwr 2 1 1 0).wellFormed = false := by decide
theorem test_wf_dacwr_bits : (AsmLine.dacwr 0 2 1 0).wellFormed = false ∧ (AsmLine.dacwr 0 1 2 0).wellFormed = false := by
  decide
theorem test_wf_dacwr_code : (AsmLine.dacwr 0 1 1 4096).wellFormed = false := by decide
theorem test_wf_adcrd_channel : (AsmLine.adcrd 4).wellFormed = false := by decide
theorem test_wf_refused_by_assemble : assemble (.rdenc 2) = none ∧ assemble (.dacwr 0 1 1 4096) = none := by decide

/-! ### Decoding: words written bit by bit from Table 30-1 and R39 to R43 -/

theorem test_decode_tick : decode (.tickv 0b01000#5) = .ok (.tick false true false false false) ∧
    decode (.tickv 0b10001#5) = .ok (.tick true false false false true) ∧
    decode (.tickv 0b00110#5) = .ok (.tick false false true true false) := by decide
theorem test_decode_rdenc : decode (.cmd 0b0001_0000_0000_0000_0000_0000#24) = .ok (.rdenc 0) ∧
    decode (.cmd 0b0001_0000_0000_0000_0000_0001#24) = .ok (.rdenc 1) := by decide
theorem test_decode_rdbtn : decode (.cmd 0b0010_0000_0000_0000_0000_0000#24) = .ok .rdbtn := by decide
/-- 95_test_vectors.md 2.6: 7500 and -32768. -/
theorem test_decode_caldac0 : decode (.cmd 0b0011_0000_0001_1101_0100_1100#24) = .ok (.caldac0 7500) ∧
    decode (.cmd 0b0011_0000_1000_0000_0000_0000#24) = .ok (.caldac0 (BitVec.ofInt 16 (-32768))) := by decide
/-- 95_test_vectors.md 2.7: 7500 and -1. -/
theorem test_decode_caldac1 : decode (.cmd 0b0011_0001_0001_1101_0100_1100#24) = .ok (.caldac1 7500) ∧
    decode (.cmd 0b0011_0001_1111_1111_1111_1111#24) = .ok (.caldac1 (BitVec.ofInt 16 (-1))) := by decide
/-- 95_test_vectors.md 2.9. -/
theorem test_decode_caladc0 : decode (.cmd 0b0100_0000_0000_0011_1110_1000#24) = .ok (.caladc0 1000) := by decide
theorem test_decode_caladc1 : decode (.cmd 0b0100_0000_0001_0011_1110_1000#24) = .ok (.caladc1 1000) := by decide
theorem test_decode_caladc2 : decode (.cmd 0b0100_0000_0010_1011_1100_1101#24) = .ok (.caladc2 3021) := by decide
theorem test_decode_caladc3 : decode (.cmd 0b0100_0000_0011_1111_1111_1111#24) = .ok (.caladc3 4095) := by decide
/-- 95_test_vectors.md 2.5: W1, W6, W3. -/
theorem test_decode_dacwr : decode (.cmd 0b0101_0000_1011_1010_1011_1100#24) = .ok (.dacwr 1 true true 0xABC) ∧
    decode (.cmd 0b0101_0000_1001_1111_1111_1111#24) = .ok (.dacwr 1 false true 4095) ∧
    decode (.cmd 0b0101_0000_0011_0100_1110_0100#24) = .ok (.dacwr 0 true true 1252) := by decide
theorem test_decode_adcrd : decode (.cmd 0b0110_0000_0000_0000_0000_0011#24) = .ok (.adcrd 3) := by decide
/-- 95_test_vectors.md 2.4: F1, F4, F8. -/
theorem test_decode_dac_frame : decode (.dacf 0b1001_1010_1011_1100#16) = .ok (.dacFrame 1 true true 0xABC) ∧
    decode (.dacf 0b0010_0000_0000_0000#16) = .ok (.dacFrame 0 false false 0) ∧
    decode (.dacf 0b1000_1011_0000_1100#16) = .ok (.dacFrame 1 true false 2828) := by decide
/-- S7. -/
theorem test_decode_adc_frame : decode (.adcf 0b0000_0110_1000_0000_0000_0000#24) = .ok (.adcFrame 2) := by decide
/-- 95_test_vectors.md 2.11, all ten reserved words. -/
theorem test_decode_reserved :
    decode (.cmd 0x000000) = .rejected .unassignedOp ∧ decode (.cmd 0x700000) = .rejected .unassignedOp ∧
    decode (.cmd 0xF00000) = .rejected .unassignedOp ∧ decode (.cmd 0x100002) = .rejected .mustBeZeroSet ∧
    decode (.cmd 0x200001) = .rejected .mustBeZeroSet ∧ decode (.cmd 0x320000) = .rejected .mustBeZeroSet ∧
    decode (.cmd 0x404000) = .rejected .mustBeZeroSet ∧ decode (.cmd 0x504ABC) = .rejected .mustBeZeroSet ∧
    decode (.cmd 0x510ABC) = .rejected .mustBeZeroSet ∧ decode (.cmd 0x600004) = .rejected .mustBeZeroSet := by decide
/-- R49, R50: what the block never sends. -/
theorem test_decode_never_sent : decode (.dacf 0xDABC) = .rejected .dacBit6Set ∧
    decode (.adcf 0x048000) = .rejected .notAnAdcQuery ∧ decode (.adcf 0x068001) = .rejected .notAnAdcQuery := by decide
/-- The text lines of R53's own examples. -/
theorem test_assemble : assemble (.tick 0 1 0 0 0) = some (.tick false true false false false) ∧
    assemble (.caldac 1 7500) = some (.caldac1 7500) ∧ assemble (.adcrd 2) = some (.adcrd 2) := by decide

/-! ### One step each -/

/-- Whether an outcome is a next state of which `p` holds. -/
def nextWith (o : Host.Outcome State Fault Refusal) (p : State → Bool) : Bool :=
  match o with
  | .next t => p t
  | .fault _ => false
  | .refused _ => false

/-- The reset state with the enable bit as given. -/
def withEnabled (e : Bool) : State := { State.reset with btn := ⟨0, e, false⟩ }

/-- The reset state with three ADC bytes to come. -/
def withMiso (r0 r1 r2 : Byte) : State := { State.reset with miso := bitsMsbFirst r0 ++ bitsMsbFirst r1 ++ bitsMsbFirst r2 }

/-- T3. -/
theorem test_tick_all_at_once :
    nextWith (exec (.tick true true true true false) { State.reset with btn := ⟨4, false, false⟩ }) (fun t =>
      t.btn == ⟨0, true, true⟩ && t.enc0 == ⟨BitVec.ofInt 16 (-1), true, true⟩ && t.enc1 == ⟨1, true, true⟩ &&
      t.ledDis == false && t.regEn == some true) = true := by decide
/-- E7 on encoder 0, E8 on encoder 1, and B11: wraps and saturation. -/
theorem test_tick_wraps :
    nextWith (exec (.tick false true false true true)
      { State.reset with enc0 := ⟨32767, false, false⟩, enc1 := ⟨0x8000, false, false⟩, btn := ⟨255, false, false⟩ })
      (fun t => t.enc0.pos.toInt == -32768 && t.enc1.pos.toInt == 32767 && t.btn == ⟨255, false, false⟩) = true := by decide
/-- H2. -/
theorem test_rdenc :
    nextWith (exec (.rdenc 1) { State.reset with enc1 := ⟨BitVec.ofInt 16 (-3), true, true⟩ }) (fun t =>
      t.rsp == some 0x1FFFD && t.enc1 == ⟨BitVec.ofInt 16 (-3), true, false⟩) = true := by decide
/-- H8. -/
theorem test_rdbtn :
    nextWith (exec .rdbtn { State.reset with btn := ⟨2, false, true⟩ }) (fun t =>
      t.rsp == some 0x10000 && t.btn == ⟨2, false, false⟩) = true := by decide
/-- 2.6: t = 7500 (S3 corrected), 10367 truncates toward zero. -/
theorem test_caldac0 : nextWith (exec (.caldac0 7500) .reset) (fun t => t.rsp == some 1252) = true := by decide
theorem test_caldac0_ends : nextWith (exec (.caldac0 10367) .reset) (fun t => t.rsp == some 0) = true ∧
    nextWith (exec (.caldac0 0x8000) .reset) (fun t => t.rsp == some 4095) = true := by decide
/-- 2.7: S4; t = -1 and 10303. -/
theorem test_caldac1 : nextWith (exec (.caldac1 7500) .reset) (fun t => t.rsp == some 2828) = true := by decide
theorem test_caldac1_ends : nextWith (exec (.caldac1 0xFFFF) .reset) (fun t => t.rsp == some 0) = true ∧
    nextWith (exec (.caldac1 10303) .reset) (fun t => t.rsp == some 4095) = true := by decide
/-- M9, M8, M10, M11. -/
theorem test_caladc0 : nextWith (exec (.caladc0 1000) .reset) (fun t => t.rsp == some 1000) = true := by decide
theorem test_caladc1 : nextWith (exec (.caladc1 4095) .reset) (fun t => t.rsp == some 10851) = true := by decide
theorem test_caladc2 : nextWith (exec (.caladc2 3021) .reset) (fun t => t.rsp == some 0xBCD) = true := by decide
theorem test_caladc3 : nextWith (exec (.caladc3 4095) .reset) (fun t => t.rsp == some 0xFFF) = true := by decide
/-- W1 and W2. -/
theorem test_dacwr_enabled : nextWith (exec (.dacwr 1 true true 0xABC) (withEnabled true)) (fun t =>
    t.spiLog == [.dacFrame 0x9A 0xBC] && t.rsp == some 0) = true := by decide
theorem test_dacwr_disabled : nextWith (exec (.dacwr 1 true true 0xABC) (withEnabled false)) (fun t =>
    t.spiLog == [.dacFrame 0x8A 0xBC] && t.rsp == some 0) = true := by decide
/-- A2, and A5 with the levels of `spi_miso` written out bit by bit, bit 7 of each byte first, and one level more. -/
theorem test_adcrd : nextWith (exec (.adcrd 1) (withMiso 0xFF 0x2B 0x0E)) (fun t =>
    t.spiLog == [.adcXfer 0x06 0x40 0x00 0xFF 0x2B 0x0E] && t.rsp == some 0xB0E) = true := by decide
theorem test_adcrd_masks :
    nextWith (exec (.adcrd 2) { State.reset with miso := [
        false, true, false, true, true, false, true, false,
        false, false, false, true, true, false, true, true,
        true, true, false, false, true, true, false, true, true] }) (fun t =>
      t.rsp == some 0xBCD && t.rxbuf == ⟨0x5A, 0x1B, 0xCD⟩ && t.miso == [true]) = true := by decide
/-- F6: the frame goes out as it stands, with no gate and no response. -/
theorem test_dac_frame : nextWith (exec (.dacFrame 1 false true 4095) .reset) (fun t =>
    t.spiLog == [.dacFrame 0xBF 0xFF] && t.rsp == none) = true := by decide
/-- S7's query. -/
theorem test_adc_frame : nextWith (exec (.adcFrame 2) (withMiso 0x00 0x0B 0xCD)) (fun t =>
    t.spiLog == [.adcXfer 0x06 0x80 0x00 0x00 0x0B 0xCD] && decAdc t.rxbuf == 0xBCD) = true := by decide
/-- S8's decoder: bit 6 is ignored. -/
theorem test_dec_dac : decDac 0xDA 0xBC = ⟨1, true, true, 0xABC⟩ ∧ decDac 0x20 0x00 = ⟨0, false, false, 0⟩ := by decide

/-! ### The step and the placing of a word -/

/-- `withFetchWord` from reset: the very next step runs the row's instruction. -/
theorem test_fetch_command : nextWith (step (State.reset.withFetchWord 24 0x301D4C)) (fun t => t.rsp == some 1252) = true := by
  decide
theorem test_fetch_tick : nextWith (step (State.reset.withFetchWord 8 0b11000)) (fun t =>
    t.enc0 == ⟨1, true, true⟩ && t.btn == ⟨0, false, false⟩) = true := by decide
theorem test_fetch_dac_frame : nextWith (step (State.reset.withFetchWord 16 0x9ABC)) (fun t =>
    t.spiLog == [.dacFrame 0x9A 0xBC] && t.rsp == some 0 && t.cmdReady) = true := by decide
theorem test_fetch_adc_frame : nextWith (step ((withMiso 0x00 0x0B 0xCD).withFetchWord 24 0x068000)) (fun t =>
    t.spiLog == [.adcXfer 0x06 0x80 0x00 0x00 0x0B 0xCD] && t.rsp == some 0xBCD && t.cmdReady) = true := by decide
/-- The first half of O1 (one clock, tick and RDENC 0): the tick first, the command still on the port. -/
theorem test_step_tick_first : nextWith (step { State.reset with clocks := [⟨false, some 0b11000, some 0x100000⟩] }) (fun t =>
    t.enc0 == ⟨1, true, true⟩ && t.rsp == none && t.clocks == [cmdClock 0x100000]) = true := by decide
/-- The second half of O1: the command answers 10001. -/
theorem test_step_then_command :
    nextWith (step { State.reset with enc0 := ⟨1, true, true⟩, clocks := [cmdClock 0x100000] }) (fun t =>
      t.enc0 == ⟨1, true, false⟩ && t.rsp == some 0x10001 && t.clocks == []) = true := by decide

/-! ### Witnesses: each obligation's hypotheses can be met -/

/-- A tick vector with the button pressed and one with it released (R42). -/
def pressed : TickVec := 0b00000
def released : TickVec := 0b10000

/-- The reset state with these clocks to come. -/
def withClocks (cs : List Clock) : State := { State.reset with clocks := cs }

/-- A DAC frame latched, none of its bytes sent, with these clocks to come. -/
def latchedDac (cs : List Clock) : State := { State.reset with seq := .dacB0, txbuf := ⟨0x9A, 0xBC, 0⟩, clocks := cs }

/-- An ADC query latched, none of its bytes sent, with these clocks to come. -/
def latchedAdc (cs : List Clock) : State := { State.reset with seq := .adcB0, txbuf := ⟨0x06, 0x80, 0x00⟩, clocks := cs }

theorem witness_ResetStepGivesResetState :
    (withClocks [⟨true, some released, some 0x200000⟩]).ports.rst = true := by decide
theorem witness_StepTakesTheTickFirst_with_command :
    let s := withClocks [⟨false, some released, some 0x200000⟩]
    s.ports.rst = false ∧ s.ports.tick = some released ∧ s.ports.cmd = some 0x200000 := by decide
theorem witness_StepTakesTheTickFirst_alone :
    let s := withClocks [tickClock released]
    s.ports.rst = false ∧ s.ports.tick = some released ∧ s.ports.cmd = none := by decide
theorem witness_StepRunsTheDecodedCommand :
    let s := withClocks [cmdClock 0x200000]
    s.ports.rst = false ∧ s.ports.tick = none ∧ s.cmdReady = true ∧ s.ports.cmd = some 0x200000 ∧
      decode (.cmd 0x200000) = .ok .rdbtn := by decide
theorem witness_StepRunsTheLatchedFrame_dac :
    let s := latchedDac []
    s.ports.rst = false ∧ s.ports.tick = none ∧ s.seq = .dacB0 ∧
      decode (.dacf (s.txbuf.b0 ++ s.txbuf.b1)) = .ok (.dacFrame 1 true true 0xABC) := by decide
theorem witness_StepRunsTheLatchedFrame_adc :
    let s := latchedAdc []
    s.ports.rst = false ∧ s.ports.tick = none ∧ s.seq = .adcB0 ∧
      decode (.adcf (s.txbuf.b0 ++ s.txbuf.b1 ++ s.txbuf.b2)) = .ok (.adcFrame 2) := by decide
theorem witness_QuietClockOnlyEndsTheResponse :
    let s := { withClocks [] with rsp := some 5 }
    s.ports = Clock.quiet ∧ s.seq = .idle := by decide
/-- A reserved word on the port. -/
theorem witness_ReservedWordsAreIgnored :
    let s := withClocks [cmdClock 0x504ABC]
    s.ports.rst = false ∧ s.ports.tick = none ∧ s.cmdReady = true ∧ s.ports.cmd = some 0x504ABC ∧
    ∀ r ∈ cmdRows, (0x504ABC : CmdWord).toNat &&& r.mask ≠ r.pattern := by decide
/-- Each other kind of reserved word: an unassigned `op` at both ends, and a must-be-zero bit next to an operand. -/
theorem witness_ReservedWordsAreIgnored_kinds :
    ∀ r ∈ cmdRows, 0x0FFFFF &&& r.mask ≠ r.pattern ∧ 0x700000 &&& r.mask ≠ r.pattern ∧ 0xFFFFFF &&& r.mask ≠ r.pattern ∧
      0x100002 &&& r.mask ≠ r.pattern ∧ 0x320000 &&& r.mask ≠ r.pattern ∧ 0x404000 &&& r.mask ≠ r.pattern ∧
      0x510ABC &&& r.mask ≠ r.pattern ∧ 0x600004 &&& r.mask ≠ r.pattern := by decide
theorem witness_BusyPortAcceptsNoCommand :
    let s := latchedDac [cmdClock 0x200000]
    s.ports.rst = false ∧ s.ports.tick = none ∧ s.seq ≠ .idle := by decide
/-- The four cases of the debouncer at their boundary counts. -/
theorem witness_TickDebouncesTheButton :
    3 < ({ State.reset with btn := ⟨4, false, false⟩ } : State).btn.cnt.toNat ∧
    ({ State.reset with btn := ⟨3, false, false⟩ } : State).btn.cnt.toNat ≤ 3 ∧
    State.reset.btn.cnt.toNat ≤ 3 ∧ (btnStep false ⟨255, false, false⟩).cnt = 255 := by decide
/-- An edge at both ends of the position range, and no edge. -/
theorem witness_TickCountsRisingEdges :
    (encStep true false ⟨32767, false, false⟩).pos.toInt = -32768 ∧
    (encStep true true ⟨0x8000, false, false⟩).pos.toInt = 32767 ∧
    encStep true true ⟨5, true, false⟩ = ⟨5, true, false⟩ := by decide
/-- Runs of 3 and of 4 samples from count 0. -/
theorem witness_DebounceContract :
    let vs3 := List.replicate 3 pressed
    let vs4 := List.replicate 4 pressed
    State.reset.btn.cnt = 0 ∧ (∀ x ∈ vs3, x.getLsbD 4 = false) ∧ (∀ x ∈ vs4, x.getLsbD 4 = false) ∧
    released.getLsbD 4 = true ∧
    (withClocks ((vs3 ++ [released]).map tickClock ++ [])).clocks = (vs3 ++ [released]).map tickClock ++ [] ∧
    (withClocks ((vs4 ++ [released]).map tickClock ++ [])).clocks = (vs4 ++ [released]).map tickClock ++ [] := by decide
theorem witness_PositionMovesOnlyOnRisingEdges :
    ∃ s t, s.ports.rst = false ∧ step s = .next t ∧ s.ports.tick = some 0b11000 ∧ (s.enc 0).lastA = false ∧
      (0b11000 : TickVec).getLsbD 3 = true :=
  ⟨withClocks [tickClock 0b11000], _, rfl, rfl, rfl, rfl, rfl⟩
theorem witness_OnlyAReleaseTogglesEnable_tick :
    ∃ s t, step s = .next t ∧ s.ports.rst = false ∧ s.ports.tick = some released ∧ 3 < s.btn.cnt.toNat :=
  ⟨{ withClocks [tickClock released] with btn := ⟨4, false, false⟩ }, _, rfl, rfl, rfl, by decide⟩
theorem witness_OnlyAReleaseTogglesEnable_reset : ∃ s t, step s = .next t ∧ s.ports.rst = true :=
  ⟨withClocks [⟨true, none, none⟩], _, rfl, rfl⟩
theorem witness_TickStepTouchesNoSpi : ∃ s t, s.ports.rst = false ∧ s.ports.tick ≠ none ∧ step s = .next t ∧ s.seq = .dacB0 :=
  ⟨latchedDac [tickClock released], _, rfl, by decide, rfl, rfl⟩
theorem witness_OnlyTheReadsSetTheResponseFlag :
    encode (.caldac0 7500) = .cmd 0x301D4C ∧ (∀ k, Instr.caldac0 7500 ≠ .rdenc k) ∧ Instr.caldac0 7500 ≠ .rdbtn := by decide
theorem witness_SameClockCommandSeesTheTick_rdenc :
    let s := withClocks [⟨false, some 0b11000, some 0x100000⟩]
    s.ports = ⟨false, some 0b11000, some 0x100000⟩ ∧ s.cmdReady = true ∧ decode (.cmd 0x100000) = .ok (.rdenc 0) := by decide
theorem witness_SameClockCommandSeesTheTick_rdbtn :
    let s := withClocks [⟨false, some released, some 0x200000⟩]
    s.ports = ⟨false, some released, some 0x200000⟩ ∧ s.cmdReady = true ∧ decode (.cmd 0x200000) = .ok .rdbtn := by decide
theorem witness_FlagsAreStickyAndComplete_enc :
    ∃ s t, s.ports.rst = false ∧ step s = .next t ∧ (s.enc 1).changed = true ∧ (t.enc 1).changed = false :=
  ⟨{ withClocks [cmdClock 0x100001] with enc1 := ⟨0, false, true⟩ }, _, rfl, rfl, rfl, rfl⟩
theorem witness_FlagsAreStickyAndComplete_btn :
    ∃ s t, s.ports.rst = false ∧ step s = .next t ∧ s.btn.changed = true ∧ t.btn.changed = false :=
  ⟨{ withClocks [cmdClock 0x200000] with btn := ⟨0, false, true⟩ }, _, rfl, rfl, rfl, rfl⟩
theorem witness_FlagsAreStickyAndComplete_count :
    ∃ s t, s.ports.rst = false ∧ step s = .next t ∧ (t.enc 0).pos ≠ (s.enc 0).pos :=
  ⟨withClocks [tickClock 0b11000], _, rfl, rfl, by decide⟩
theorem witness_FlagsAreStickyAndComplete_toggle :
    ∃ s t, s.ports.rst = false ∧ step s = .next t ∧ t.btn.enabled ≠ s.btn.enabled :=
  ⟨{ withClocks [tickClock released] with btn := ⟨4, false, false⟩ }, _, rfl, rfl, by decide⟩
theorem witness_HostWritesNothingButFlagClears :
    ∃ s t, s.ports.rst = false ∧ s.ports.tick = none ∧ step s = .next t ∧ (s.enc 0).changed = true :=
  ⟨{ withClocks [cmdClock 0x100000] with enc0 := ⟨7, true, true⟩ }, _, rfl, rfl, rfl, rfl⟩
/-- Targets at the ends of every range of R67. -/
theorem witness_Caldac0CornersAndDirection :
    (995 : Target).toInt ≤ 995 ∧ (0x8000 : Target).toInt ≤ 995 ∧ (996 : Target).toInt = 996 ∧ (10363 : Target).toInt = 10363 ∧
    10364 ≤ (10364 : Target).toInt ∧ 10364 ≤ (0x7FFF : Target).toInt ∧ (996 : Target).toInt ≤ (10363 : Target).toInt := by decide
/-- Targets at the ends of every range of R68. -/
theorem witness_Caldac1CornersAndDirection :
    (1252 : Target).toInt ≤ 1252 ∧ (0x8000 : Target).toInt ≤ 1252 ∧ (1253 : Target).toInt = 1253 ∧
    (10299 : Target).toInt = 10299 ∧ 10300 ≤ (10300 : Target).toInt ∧ 10300 ≤ (0x7FFF : Target).toInt ∧
    (1253 : Target).toInt ≤ (10299 : Target).toInt := by decide
theorem witness_CaladcPinChannelsAreIdentity :
    Instr.caladc3 4095 ∈ [Instr.caladc0 4095, .caladc2 4095, .caladc3 4095] := by decide
theorem witness_AdcAnswerMayBeAnyBytes : (withMiso 0x5A 0x1B 0xCD).miso = bitsMsbFirst 0x5A ++ bitsMsbFirst 0x1B ++ bitsMsbFirst 0xCD ++ [] := by decide
theorem witness_DisabledFramesHaveTheChannelOff :
    ∃ s t, s.Settled ∧ s.ports.rst = false ∧ s.btn.enabled = false ∧ step s = .next t ∧ t.spiLog = [.dacFrame 0x8A 0xBC] :=
  ⟨withClocks [cmdClock 0x50BABC], _, rfl, rfl, rfl, rfl, by decide⟩
theorem witness_HistoryOnlyGrows : ∃ s t, s.ports.rst = false ∧ step s = .next t ∧ s.spiLog ≠ t.spiLog :=
  ⟨withClocks [cmdClock 0x50BABC], _, rfl, rfl, by decide⟩
theorem witness_WireInvariantIsKept : ∃ s t, s.WireInv ∧ step s = .next t ∧ s.seq = .dacB0 ∧ s.spiLog ≠ [] :=
  ⟨{ latchedDac [] with spiLog := [.dacFrame 0x8A 0xBC, .adcXfer 0x06 0x80 0x00 0x00 0x0B 0xCD] }, _,
    ⟨rfl, by
      intro ev h
      rcases List.mem_cons.1 h with rfl | h
      · rfl
      · rcases List.mem_cons.1 h with rfl | h
        · exact ⟨2, rfl⟩
        · cases h⟩,
    rfl, rfl, by decide⟩
theorem witness_SettledIsKept : ∃ s t, step s = .next t ∧ s.Settled ∧ t.Settled :=
  ⟨withClocks [cmdClock 0x50BABC], _, rfl, rfl, rfl⟩
theorem witness_SettledIsKept_inside : ∃ s t, step s = .next t ∧ ¬ t.Settled :=
  ⟨latchedDac [tickClock released], _, rfl, fun h => by cases h⟩
theorem witness_TickInsideATransferDisturbsNothing :
    let s := latchedAdc [tickClock 0b11000, Clock.quiet]
    s.seq ≠ .idle ∧ s.clocks = tickClock 0b11000 :: Clock.quiet :: [] := by decide
theorem witness_EncodeOfDecode : decode (.cmd 0x50BABC) = .ok (.dacwr 1 true true 0xABC) := by decide
theorem witness_CommandDecodesIffItMatchesARow :
    decode (.cmd 0x600003) = .ok (.adcrd 3) ∧ ∃ r ∈ cmdRows, (0x600003 : CmdWord).toNat &&& r.mask = r.pattern := by decide
theorem witness_TextFormAgrees :
    (AsmLine.caldac 1 (-32768)).wellFormed = true ∧ (AsmLine.dacwr 1 1 0 4095).wellFormed = true ∧
    disassemble (.caldac1 0x8000) = some (.caldac 1 (-32768)) ∧
    assemble (.caldac 1 (-32768)) = some (.caldac1 0x8000) := by decide
theorem witness_ChipSelectHeldForTheWholeFrame : selected .dac true true ∈ frameWave .dac 0 [0x80, 0x00] := by
  simp [frameWave, bytesWave, byteWave, bitsMsbFirst, bitWave, Config.spiDiv]
theorem witness_TransferLength :
    (SpiEvent.dacFrame 0x9A 0xBC).dev = .dac ∧ (SpiEvent.adcXfer 0x06 0x80 0x00 0x00 0x0B 0xCD).dev = .adc := by decide
theorem witness_OutputPinsFollowTheState :
    State.reset.oe = .DISABLED ∧ (withEnabled true).oe = .ENABLED ∧ State.reset.seq = .idle := by decide
theorem witness_MisoIsSampledMsbFirst : 1 < [(0x06 : Byte), 0x80].length ∧ 7 < 8 := by decide
theorem witness_AdcrdReceivesWhatTheBusShows :
    let bits := risingMiso false (frameBus .adc 0 (fun n => n % 3 == 0) [0x06#8, (2 : AdcChan) ++ 0#6, 0x00#8])
    ({ State.reset with miso := bits ++ [true] } : State).miso = bits ++ [true] ∧
      (SpiEvent.adcXfer 0x06 0x80 0x00 0x00 0x0B 0xCD).dev = .adc := ⟨rfl, rfl⟩

end Sys2Proof.Tests
end

section
/-! SUPPORT. Everything one step can do, said once: `StepCase` has a constructor for each way a step can go, and
`stepCase_of_step` gives the one a step took. Invariants of the step are case analyses over it. -/

namespace Sys2Proof.Machine

@[simp] theorem endResponse_ports (s : State) : (endResponse s).ports = s.ports := rfl
@[simp] theorem endResponse_latchedFrame (s : State) : latchedFrame (endResponse s) = latchedFrame s := rfl

theorem step_of_take_reset {s : State} (h : take (endResponse s) = .reset) : step s = .next (hardReset s) := by
  simp [step, h]

theorem step_of_take_instr {s s' : State} {i : Instr} {d : Option Dev} (h : take (endResponse s) = .instr i s' d) :
    step s = afterNext (completeIf d) (exec i s') := by
  simp [step, h]

theorem step_of_take_other {s s' : State} (h : take (endResponse s) = .other s') : step s = .next s' := by
  simp [step, h]

/-- An outcome continued by `f` is a next state only if the outcome is one. -/
theorem afterNext_eq_next {f : State → State} {o : Host.Outcome State Fault Refusal} {t : State}
    (h : afterNext f o = .next t) : ∃ u, o = .next u ∧ t = f u := by
  cases o with
  | next u => cases h; exact ⟨u, rfl, rfl⟩
  | fault r => cases h
  | refused r => cases h

/-- The ways in which a step can lead from `s` to `t`, in the order of R36, R88, R89 and R95. -/
inductive StepCase (s t : State) : Prop
  /-- `rst` is asserted. -/
  | reset (hrst : s.ports.rst = true) (ht : t = hardReset s)
  /-- A tick. -/
  | tick (v : TickVec) (hrst : s.ports.rst = false) (htick : s.ports.tick = some v)
      (hexec : exec (decodeTick v) (takeTick (endResponse s)) = .next t)
  /-- A latched frame goes on the wire as the instruction it decodes to, and completes its command. -/
  | frame (d : Dev) (r : RawWord) (i : Instr) (u : State) (hrst : s.ports.rst = false) (htick : s.ports.tick = none)
      (hdev : s.seq.dev = some d) (hlatch : latchedFrame s = some r) (hdec : decode r = .ok i)
      (hexec : exec i (endResponse s) = .next u) (ht : t = complete d u)
  /-- The bytes of a transfer that are left are sent as they stand. -/
  | rest (d : Dev) (hrst : s.ports.rst = false) (htick : s.ports.tick = none) (hdev : s.seq.dev = some d)
      (hlatch : ∀ r i, latchedFrame s = some r → decode r ≠ .ok i) (ht : t = complete d (runXfer (endResponse s)))
  /-- Nothing arrives. -/
  | quiet (hrst : s.ports.rst = false) (htick : s.ports.tick = none) (hdev : s.seq.dev = none)
      (hcmd : s.ports.cmd = none) (ht : t = popClock (endResponse s))
  /-- A command is accepted. -/
  | command (w : CmdWord) (i : Instr) (hrst : s.ports.rst = false) (htick : s.ports.tick = none)
      (hdev : s.seq.dev = none) (hcmd : s.ports.cmd = some w) (hdec : decodeCmd w = .ok i)
      (hexec : exec i (popClock (endResponse s)) = .next t)
  /-- A reserved word is accepted and ignored. -/
  | reserved (w : CmdWord) (e : DecodeError) (hrst : s.ports.rst = false) (htick : s.ports.tick = none)
      (hdev : s.seq.dev = none) (hcmd : s.ports.cmd = some w) (hdec : decodeCmd w = .rejected e)
      (ht : t = respond false 0 (popClock (endResponse s)))

/-- A step that finds a transfer of device `d` under way finishes it. -/
theorem stepCase_of_takeBusy {s t : State} {d : Dev} (h : step s = .next t) (hrst : s.ports.rst = false)
    (htick : s.ports.tick = none) (hdev : s.seq.dev = some d)
    (htake : take (endResponse s) = takeBusy d (endResponse s)) : StepCase s t := by
  rcases takeBusy_cases d (endResponse s) with ⟨r, i, hlatch, hdec, hb⟩ | hb
  · rw [step_of_take_instr (htake.trans hb)] at h
    obtain ⟨u, hexec, ht⟩ := afterNext_eq_next h
    exact .frame d r i u hrst htick hdev hlatch hdec hexec ht
  · have ht : t = complete d (runXfer (endResponse s)) := by
      rw [step_of_take_other (htake.trans hb)] at h
      cases h; rfl
    refine .rest d hrst htick hdev (fun r i hlatch hdec => ?_) ht
    have hinstr : takeBusy d (endResponse s) = .instr i (endResponse s) (some d) := by
      simp [takeBusy, hlatch, hdec]
    rw [hb] at hinstr
    cases hinstr

/-- A step that finds the port ready takes what stands on it. -/
theorem stepCase_of_takeCommand {s t : State} (h : step s = .next t) (hrst : s.ports.rst = false)
    (htick : s.ports.tick = none) (hdev : s.seq.dev = none)
    (htake : take (endResponse s) = takeCommand (endResponse s)) : StepCase s t := by
  rcases takeCommand_cases (endResponse s) with ⟨hcmd, hc⟩ | ⟨w, i, hcmd, hdec, hc⟩ | ⟨w, e, hcmd, hdec, hc⟩
  · rw [step_of_take_other (htake.trans hc)] at h
    cases h
    exact .quiet hrst htick hdev hcmd rfl
  · rw [step_of_take_instr (htake.trans hc)] at h
    obtain ⟨u, hexec, rfl⟩ := afterNext_eq_next h
    exact .command w i hrst htick hdev hcmd hdec hexec
  · rw [step_of_take_other (htake.trans hc)] at h
    cases h
    exact .reserved w e hrst htick hdev hcmd hdec rfl

/-- Every step goes one of the ways of `StepCase`. -/
theorem stepCase_of_step {s t : State} (h : step s = .next t) : StepCase s t := by
  rcases take_cases (endResponse s) with ⟨hrst, htake⟩ | ⟨hrst, v, htick, htake⟩ |
    ⟨hrst, htick, d, hdev, htake⟩ | ⟨hrst, htick, hdev, htake⟩
  · rw [step_of_take_reset htake] at h
    cases h
    exact .reset hrst rfl
  · rw [step_of_take_instr htake] at h
    obtain ⟨u, hexec, rfl⟩ := afterNext_eq_next h
    exact .tick v hrst htick hexec
  · exact stepCase_of_takeBusy h hrst htick hdev htake
  · exact stepCase_of_takeCommand h hrst htick hdev htake

end Sys2Proof.Machine
end

section
/-! SUPPORT. What each input a step can take does to the byte sequencer (10_state.md R20), and from that the claim on
settled states (00_scope.md R6). -/

namespace Sys2Proof.Machine

@[simp] theorem clearEncChanged_seq (i : EncIdx) (s : State) : (s.clearEncChanged i).seq = s.seq := setEnc_seq _ _ _
@[simp] theorem hardReset_seq (s : State) : (hardReset s).seq = .idle := rfl
@[simp] theorem spiXferDac_seq (b : Byte × Byte) (s : State) : (spiXferDac b s).seq = .idle := runXfer_seq _
@[simp] theorem spiXferAdc_seq (q : ByteBuf) (s : State) : (spiXferAdc q s).seq = .idle := runXfer_seq _

@[simp] theorem complete_seq (d : Dev) (s : State) : (complete d s).seq = s.seq := by
  obtain ⟨data, h⟩ := complete_eq d s
  rw [h, respond_seq]

theorem Seq.dev_eq_none_iff (q : Seq) : q.dev = none ↔ q = .idle := by
  cases q <;> simp [Seq.dev]

/-- A tick does not move the sequencer (R20, R89). -/
theorem exec_decodeTick_seq {v : TickVec} {s t : State} (h : exec (decodeTick v) s = .next t) : t.seq = s.seq := by
  cases h; rfl

/-- An operation either leaves the sequencer alone or runs a whole transfer (R6). -/
theorem exec_seq_cases {i : Instr} {s t : State} (h : exec i s = .next t) : t.seq = s.seq ∨ t.seq = .idle := by
  cases i with
  | tick | rdbtn | caldac0 | caldac1 | caladc0 | caladc1 | caladc2 | caladc3 => cases h; exact .inl rfl
  | rdenc j => cases h; exact .inl (by simp)
  | dacwr | adcrd | dacFrame | adcFrame => cases h; exact .inr rfl

theorem exec_seq_of_idle {i : Instr} {s t : State} (h : exec i s = .next t) (hs : s.seq = .idle) : t.seq = .idle :=
  (exec_seq_cases h).elim (fun heq => heq.trans hs) id

/-- A DAC wire word decodes to a DAC.FRAME. -/
theorem decodeDacWire_ok {f : BitVec 16} {i : Instr} (h : decodeDacWire f = .ok i) :
    ∃ c g e v, i = .dacFrame c g e v := by
  unfold decodeDacWire at h
  split at h
  · cases h
  · cases h; exact ⟨_, _, _, _, rfl⟩

/-- An ADC wire word decodes to an ADC.FRAME. -/
theorem decodeAdcWire_ok {q : BitVec 24} {i : Instr} (h : decodeAdcWire q = .ok i) : ∃ ch, i = .adcFrame ch := by
  unfold decodeAdcWire at h
  split at h
  · cases h; exact ⟨_, rfl⟩
  · cases h

/-- What is latched decodes, if it decodes at all, to one of the two wire instructions. -/
theorem latchedFrame_ok {s : State} {r : RawWord} {i : Instr} (hl : latchedFrame s = some r) (hd : decode r = .ok i) :
    (∃ c g e v, i = .dacFrame c g e v) ∨ ∃ ch, i = .adcFrame ch := by
  unfold latchedFrame at hl
  split at hl
  · cases hl; exact .inl (decodeDacWire_ok hd)
  · cases hl; exact .inr (decodeAdcWire_ok hd)
  all_goals cases hl

/-- A latched frame is sent whole. -/
theorem exec_latchedFrame_seq {s s' t : State} {r : RawWord} {i : Instr} (hl : latchedFrame s = some r)
    (hd : decode r = .ok i) (h : exec i s' = .next t) : t.seq = .idle := by
  obtain ⟨c, g, e, v, rfl⟩ | ⟨ch, rfl⟩ := latchedFrame_ok hl hd
  · cases h; rfl
  · cases h; rfl

/-- After a step the sequencer is idle, or the step was a tick and left it where it was. -/
theorem step_seq_cases {s t : State} (h : step s = .next t) :
    t.seq = .idle ∨ (s.ports.rst = false ∧ s.ports.tick ≠ none ∧ t.seq = s.seq) := by
  cases stepCase_of_step h with
  | reset _ ht => exact .inl (by simp [ht])
  | tick v hrst htick hexec => exact .inr ⟨hrst, by simp [htick], by simpa using exec_decodeTick_seq hexec⟩
  | frame d r i u _ _ _ hlatch hdec hexec ht =>
    exact .inl (by rw [ht, complete_seq]; exact exec_latchedFrame_seq hlatch hdec hexec)
  | rest d _ _ _ _ ht => exact .inl (by simp [ht])
  | quiet _ _ hdev _ ht => exact .inl (by simpa [ht] using (Seq.dev_eq_none_iff s.seq).1 hdev)
  | command w i _ _ hdev _ _ hexec =>
    exact .inl (exec_seq_of_idle hexec (by simpa using (Seq.dev_eq_none_iff s.seq).1 hdev))
  | reserved w e _ _ hdev _ _ ht => exact .inl (by simpa [ht] using (Seq.dev_eq_none_iff s.seq).1 hdev)

/-- Settles O46: every step but a tick ends with the sequencer idle, and a tick leaves it where it was. -/
theorem settledIsKept : Obligations.SettledIsKept := by
  intro s t h
  rcases step_seq_cases h with hidle | ⟨hrst, htick, hseq⟩
  · exact ⟨fun _ => hidle, fun hn => absurd hidle hn⟩
  · exact ⟨fun hs => hseq.trans hs, fun _ => ⟨hrst, htick, hseq⟩⟩

end Sys2Proof.Machine
end

section
/-! SUPPORT. A latched frame that decodes is sent as it stands: the wire instruction it decodes to is the walk of the
sequencer over its bytes (10_state.md R20, 30_encoding.md R52). With it a step that finds a transfer under way has one
rule, `step_of_busy`, whatever byte the transfer stands at. -/

namespace Sys2Proof.Machine

/-! ### The decoder of the wire words and the frame encoders -/

/-- A DAC wire word that decodes has bit 14 clear, and its fields are those of R39. -/
theorem decodeDacWire_eq_ok {f : BitVec 16} {i : Instr} (h : decodeDacWire f = .ok i) :
    f.getLsbD 14 = false ∧
      i = .dacFrame (f.extractLsb' 15 1) (!f.getLsbD 13) (f.getLsbD 12) (f.extractLsb' 0 12) := by
  unfold decodeDacWire at h
  split at h
  · cases h
  · rename_i hbit
    cases h
    exact ⟨by simpa using hbit, rfl⟩

/-- An ADC wire word that decodes has the fixed bits of R40, and its channel in bits 15 and 14. -/
theorem decodeAdcWire_eq_ok {q : BitVec 24} {i : Instr} (h : decodeAdcWire q = .ok i) :
    q.extractLsb' 16 8 = 0x06#8 ∧ q.extractLsb' 0 14 = 0 ∧ i = .adcFrame (q.extractLsb' 14 2) := by
  unfold decodeAdcWire at h
  split at h
  · rename_i hbits
    cases h
    exact ⟨hbits.1, hbits.2, rfl⟩
  · cases h

/-- EncDac gives back the two bytes whose fields it is given, if bit 6 of Byte0 is 0 (R49, R62). -/
theorem encDac_of_fields (b0 b1 : Byte) (h6 : (b0 ++ b1).getLsbD 14 = false) :
    encDac ((b0 ++ b1).extractLsb' 15 1) (!(b0 ++ b1).getLsbD 13) ((b0 ++ b1).getLsbD 12)
      ((b0 ++ b1).extractLsb' 0 12) = (b0, b1) := by
  have hb0 : b0.getLsbD 6 = false := by rwa [BitVec.getLsbD_append] at h6
  unfold encDac
  refine Prod.ext (BitVec.eq_of_getLsbD_eq fun k hk => ?_) (BitVec.eq_of_getLsbD_eq fun k hk => ?_)
  · interval_cases k <;>
      simp only [BitVec.getLsbD_append, BitVec.getLsbD_extractLsb', BitVec.getLsbD_ofBool, hb0] <;> simp
  · simp only [BitVec.getLsbD_append, BitVec.getLsbD_extractLsb']
    simp [hk, show k < 12 by omega]

/-- EncAdc gives back the three bytes whose channel it is given, if their other bits are those of a query (R50, R71). -/
theorem encAdc_of_fields (b0 b1 b2 : Byte) (h0 : (b0 ++ b1 ++ b2).extractLsb' 16 8 = 0x06#8)
    (hz : (b0 ++ b1 ++ b2).extractLsb' 0 14 = 0) :
    encAdc ((b0 ++ b1 ++ b2).extractLsb' 14 2) = ⟨b0, b1, b2⟩ := by
  have hzero : ∀ k < 14, (b0 ++ b1 ++ b2).getLsbD k = false := fun k hk => by
    simpa [hk] using congrArg (fun x => x.getLsbD k) hz
  have hb0 : 0x06#8 = b0 := by
    rw [← h0]
    refine BitVec.eq_of_getLsbD_eq fun k hk => ?_
    simp only [BitVec.getLsbD_append, BitVec.getLsbD_extractLsb']
    simp [hk, show ¬ 16 + k < 8 by omega, show ¬ 16 + k - 8 < 8 by omega, show 16 + k - 8 - 8 = k by omega]
  have hb1 : (b0 ++ b1 ++ b2).extractLsb' 14 2 ++ 0#6 = b1 := by
    refine BitVec.eq_of_getLsbD_eq fun k hk => ?_
    rcases Nat.lt_or_ge k 6 with hlow | hhigh
    · have hbit := hzero (8 + k) (by omega)
      simp only [BitVec.getLsbD_append] at hbit ⊢
      simpa [hk, hlow] using hbit.symm
    · interval_cases k <;> simp only [BitVec.getLsbD_append, BitVec.getLsbD_extractLsb'] <;> simp
  have hb2 : 0x00#8 = b2 := by
    refine BitVec.eq_of_getLsbD_eq fun k hk => ?_
    have := hzero k (by omega)
    simp only [BitVec.getLsbD_append] at this
    simpa [hk] using this.symm
  unfold encAdc
  rw [hb0, hb1, hb2]

/-! ### The latched frame is sent as it stands -/

/-- Latching the bytes that are latched changes nothing. -/
theorem startDac_of_latched {s : State} (hseq : s.seq = .dacB0) : startDac s.txbuf.b0 s.txbuf.b1 s = s := by
  unfold startDac
  rw [← hseq]

theorem startAdc_of_latched {s : State} (hseq : s.seq = .adcB0) : startAdc s.txbuf s = s := by
  unfold startAdc
  rw [← hseq]

/-- The wire instruction a latched frame decodes to sends that frame (R20, R52). -/
theorem exec_of_latchedFrame {s : State} {r : RawWord} {i : Instr} (hl : latchedFrame s = some r)
    (hd : decode r = .ok i) : exec i s = .next (runXfer s) := by
  unfold latchedFrame at hl
  split at hl
  next hseq =>
    cases hl
    obtain ⟨hbit, rfl⟩ := decodeDacWire_eq_ok hd
    calc exec _ s = .next (runXfer (startDac _ _ s)) := rfl
      _ = .next (runXfer s) := by rw [encDac_of_fields _ _ hbit, startDac_of_latched hseq]
  next hseq =>
    cases hl
    obtain ⟨hfirst, hzero, rfl⟩ := decodeAdcWire_eq_ok hd
    calc exec _ s = .next (runXfer (startAdc _ s)) := rfl
      _ = .next (runXfer s) := by rw [encAdc_of_fields _ _ _ hfirst hzero, startAdc_of_latched hseq]
  all_goals cases hl

/-- A step that finds a transfer under way sends what is left of it and answers its command (R20, R29, R82). -/
theorem step_of_busy {s : State} {d : Dev} (hrst : s.ports.rst = false) (htick : s.ports.tick = none)
    (hdev : s.seq.dev = some d) : step s = .next (complete d (runXfer (endResponse s))) := by
  have htake : take (endResponse s) = takeBusy d (endResponse s) := by simp [take, hrst, htick, hdev]
  rcases takeBusy_cases d (endResponse s) with ⟨r, i, hlatch, hdec, hb⟩ | hb
  · rw [step_of_take_instr (htake.trans hb), exec_of_latchedFrame hlatch hdec, afterNext_next]
    rfl
  · exact step_of_take_other (htake.trans hb)

theorem Seq.exists_dev {q : Seq} (h : q ≠ .idle) : ∃ d, q.dev = some d :=
  Option.ne_none_iff_exists'.1 fun hnone => h ((Seq.dev_eq_none_iff q).1 hnone)

theorem Seq.ne_idle_of_dev {q : Seq} {d : Dev} (h : q.dev = some d) : q ≠ .idle := fun hidle => by
  rw [hidle] at h; cases h

/-! ### What the end of a transfer leaves unchanged and what it logs -/

@[simp] theorem complete_enc0 (d : Dev) (s : State) : (complete d s).enc0 = s.enc0 := by cases d <;> rfl
@[simp] theorem complete_enc1 (d : Dev) (s : State) : (complete d s).enc1 = s.enc1 := by cases d <;> rfl
@[simp] theorem complete_btn (d : Dev) (s : State) : (complete d s).btn = s.btn := by cases d <;> rfl
@[simp] theorem complete_txbuf (d : Dev) (s : State) : (complete d s).txbuf = s.txbuf := by cases d <;> rfl
@[simp] theorem complete_rxbuf (d : Dev) (s : State) : (complete d s).rxbuf = s.rxbuf := by cases d <;> rfl
@[simp] theorem complete_spiLog (d : Dev) (s : State) : (complete d s).spiLog = s.spiLog := by cases d <;> rfl
@[simp] theorem complete_clocks (d : Dev) (s : State) : (complete d s).clocks = s.clocks := by cases d <;> rfl
@[simp] theorem complete_miso (d : Dev) (s : State) : (complete d s).miso = s.miso := by cases d <;> rfl
@[simp] theorem complete_misoDrawn (d : Dev) (s : State) : (complete d s).misoDrawn = s.misoDrawn := by cases d <;> rfl
@[simp] theorem complete_rspValid (d : Dev) (s : State) : (complete d s).rspValid = true := by cases d <;> rfl

/-- The rest of a transfer puts exactly one event in the history (R22). -/
theorem runXfer_spiLog {s : State} (h : s.seq ≠ .idle) : ∃ ev, (runXfer s).spiLog = s.spiLog ++ [ev] := by
  rcases s with ⟨_, _, _, q, _⟩
  cases q with
  | idle => exact absurd rfl h
  | dacB0 | dacB1 | adcB0 | adcB1 | adcB2 => exact ⟨_, rfl⟩

/-! ### Claims on a transfer under way -/

/-- Settles O8: the step is `step_of_busy`, and `runXfer` and `complete` touch neither the control state nor the
ports. -/
theorem busyPortAcceptsNoCommand : Obligations.BusyPortAcceptsNoCommand := by
  intro s hrst htick hseq
  obtain ⟨d, hdev⟩ := Seq.exists_dev hseq
  obtain ⟨ev, hlog⟩ := runXfer_spiLog (s := endResponse s) hseq
  refine ⟨by simp [State.cmdReady, hseq], _, step_of_busy hrst htick hdev, ?_, ?_, ?_, ?_, ?_⟩
  · simp [State.cmdReady]
  · simp
  · simp [SameControl]
  · simp
  · simp [hlog]

/-- A latched frame that decodes is the instruction the step takes. -/
theorem step_of_latchedFrame {s : State} {d : Dev} {r : RawWord} {i : Instr} (hrst : s.ports.rst = false)
    (htick : s.ports.tick = none) (hdev : s.seq.dev = some d) (hlatch : latchedFrame s = some r)
    (hdec : decode r = .ok i) : step s = afterNext (complete d) (exec i (endResponse s)) :=
  step_of_take_instr (d := some d) (by simp [take, takeBusy, hrst, htick, hdev, hlatch, hdec])

/-- Settles O5, by the rule for a latched frame, once for each device. -/
theorem stepRunsTheLatchedFrame : Obligations.StepRunsTheLatchedFrame := by
  intro s i hrst htick
  constructor
  · intro hseq hdec
    exact step_of_latchedFrame hrst htick (by simp [hseq, Seq.dev]) (by simp [latchedFrame, hseq]) hdec
  · intro hseq hdec
    exact step_of_latchedFrame hrst htick (by simp [hseq, Seq.dev]) (by simp [latchedFrame, hseq]) hdec

end Sys2Proof.Machine
end

section
/-! SUPPORT. What a step does to the history and to each element of the Shared Control State, and from that the claims
that the history only grows (10_state.md R22) and that the flags are sticky and complete (10_state.md R18,
20_memory.md R36). -/

namespace Sys2Proof.Machine

/-! ### The history -/

/-- `t`'s history is `s`'s, followed by at most one event. -/
def LogExtends (s t : State) : Prop := ∃ new, t.spiLog = s.spiLog ++ new ∧ new.length ≤ 1

theorem LogExtends.of_eq {s t : State} (h : t.spiLog = s.spiLog) : LogExtends s t := ⟨[], by simp [h], by simp⟩

theorem LogExtends.of_append {s t : State} {ev : SpiEvent} (h : t.spiLog = s.spiLog ++ [ev]) : LogExtends s t :=
  ⟨[ev], h, Nat.le_refl 1⟩

@[simp] theorem clearEncChanged_spiLog (i : EncIdx) (s : State) : (s.clearEncChanged i).spiLog = s.spiLog :=
  setEnc_spiLog _ _ _

/-- An operation that runs a transfer logs its event; every other one leaves the history alone (R22). -/
theorem exec_logExtends {i : Instr} {s t : State} (h : exec i s = .next t) : LogExtends s t := by
  cases i with
  | tick | rdbtn | caldac0 | caldac1 | caladc0 | caladc1 | caladc2 | caladc3 => cases h; exact .of_eq rfl
  | rdenc j => cases h; exact .of_eq (by simp)
  | dacwr | adcrd | dacFrame | adcFrame => cases h; exact .of_append rfl

/-- Every step but a reset extends the history (R22). -/
theorem step_logExtends {s t : State} (hrst : s.ports.rst = false) (h : step s = .next t) : LogExtends s t := by
  cases stepCase_of_step h with
  | reset hreset _ => rw [hrst] at hreset; cases hreset
  | tick v _ _ hexec => simpa [LogExtends] using exec_logExtends hexec
  | frame d r i u _ _ _ _ _ hexec ht => simpa [LogExtends, ht] using exec_logExtends hexec
  | rest d _ _ hdev _ ht =>
    obtain ⟨ev, hlog⟩ := runXfer_spiLog (s := endResponse s) (Seq.ne_idle_of_dev hdev)
    exact .of_append (by simpa [ht] using hlog)
  | quiet _ _ _ _ ht => exact .of_eq (by simp [ht])
  | command w i _ _ _ _ _ hexec => simpa [LogExtends] using exec_logExtends hexec
  | reserved w e _ _ _ _ _ ht => exact .of_eq (by simp [ht])

/-- Settles O39, by the case analysis of `step_logExtends`. -/
theorem historyOnlyGrows : Obligations.HistoryOnlyGrows := fun _ _ hrst h => step_logExtends hrst h

/-! ### The Shared Control State, element by element -/

/-- What a tick vector makes of encoder `i` (R42, R58). -/
def tickEnc (v : TickVec) (i : EncIdx) (e : Encoder) : Encoder :=
  encStep (v.getLsbD (if i = 0 then 3 else 1)) (v.getLsbD (if i = 0 then 2 else 0)) e

/-- What a tick vector makes of the button (R42, R56). -/
def tickBtn (v : TickVec) (b : Button) : Button := btnStep (v.getLsbD 4) b

/-- A tick runs BTN.STEP and both ENC.STEPs on the levels of its vector, and nothing else (R55). -/
theorem exec_decodeTick (v : TickVec) (s : State) :
    exec (decodeTick v) s =
      .next { s with btn := tickBtn v s.btn, enc0 := tickEnc v 0 s.enc0, enc1 := tickEnc v 1 s.enc1 } := rfl

theorem exec_decodeTick_enc {v : TickVec} {s t : State} (h : exec (decodeTick v) s = .next t) (i : EncIdx) :
    t.enc i = tickEnc v i (s.enc i) := by
  cases h
  obtain rfl | rfl := encIdx_cases i
  · rfl
  · rfl

theorem exec_decodeTick_btn {v : TickVec} {s t : State} (h : exec (decodeTick v) s = .next t) :
    t.btn = tickBtn v s.btn := by
  cases h; rfl

/-- No command word decodes to a tick: ticks come by the strobe alone (R42, R48). -/
theorem decodeCmd_ne_tick {w : CmdWord} {i : Instr} (h : decodeCmd w = .ok i) (n a0 b0 a1 b1 : Bool) :
    i ≠ .tick n a0 b0 a1 b1 := by
  rintro rfl
  unfold decodeCmd decodeRdenc decodeRdbtn decodeCaldac decodeCaladc decodeDacwr decodeAdcrd at h
  split_ifs at h <;> cases h

theorem sameControl_enc {s t : State} (h : SameControl s t) (i : EncIdx) : t.enc i = s.enc i := by
  obtain ⟨h0, h1, -⟩ := h
  obtain rfl | rfl := encIdx_cases i
  · exact h0
  · exact h1

/-- An operation other than a tick and the two reads leaves the Shared Control State alone (R85). -/
theorem exec_sameControl {i : Instr} {s t : State} (h : exec i s = .next t)
    (htick : ∀ n a0 b0 a1 b1, i ≠ .tick n a0 b0 a1 b1) (hrdenc : ∀ k, i ≠ .rdenc k) (hrdbtn : i ≠ .rdbtn) :
    SameControl s t := by
  cases i with
  | tick n a0 b0 a1 b1 => exact absurd rfl (htick n a0 b0 a1 b1)
  | rdenc k => exact absurd rfl (hrdenc k)
  | rdbtn => exact absurd rfl hrdbtn
  | caldac0 | caldac1 | caladc0 | caladc1 | caladc2 | caladc3 => cases h; exact ⟨rfl, rfl, rfl⟩
  | dacwr | adcrd | dacFrame | adcFrame => cases h; simp [SameControl, spiXferDac, spiXferAdc]

/-- An operation other than a tick leaves an encoder alone, but for the flag RDENC of that encoder clears (R83, R85). -/
theorem exec_enc_cases {i : Instr} {s t : State} (h : exec i s = .next t)
    (hi : ∀ n a0 b0 a1 b1, i ≠ .tick n a0 b0 a1 b1) (j : EncIdx) :
    t.enc j = s.enc j ∨ (i = .rdenc j ∧ t.enc j = { s.enc j with changed := false }) := by
  cases i with
  | rdenc k =>
    cases h
    by_cases hjk : j = k
    · exact .inr ⟨by rw [hjk], by simp [hjk, State.clearEncChanged]⟩
    · exact .inl (setEnc_enc_of_ne k j hjk _ _)
  | rdbtn => cases h; exact .inl rfl
  | tick | caldac0 | caldac1 | caladc0 | caladc1 | caladc2 | caladc3 | dacwr | adcrd | dacFrame | adcFrame =>
    exact .inl (sameControl_enc (exec_sameControl h hi nofun nofun) j)

/-- An operation other than a tick leaves the button alone, but for the flag RDBTN clears (R84, R85). -/
theorem exec_btn_cases {i : Instr} {s t : State} (h : exec i s = .next t)
    (hi : ∀ n a0 b0 a1 b1, i ≠ .tick n a0 b0 a1 b1) :
    t.btn = s.btn ∨ (i = .rdbtn ∧ t.btn = { s.btn with changed := false }) := by
  cases i with
  | rdbtn => cases h; exact .inr ⟨rfl, rfl⟩
  | rdenc k => cases h; exact .inl (by simp [State.clearEncChanged])
  | tick | caldac0 | caldac1 | caladc0 | caladc1 | caladc2 | caladc3 | dacwr | adcrd | dacFrame | adcFrame =>
    obtain ⟨-, -, hbtn⟩ := exec_sameControl h hi nofun nofun
    exact .inl hbtn

/-- The ways in which a step that is no reset can treat the Shared Control State: it takes a tick, it runs a command
that is no tick, or it leaves the control state as it is. -/
theorem step_control_cases {s t : State} (hrst : s.ports.rst = false) (h : step s = .next t) :
    (∃ v, s.ports.tick = some v ∧ exec (decodeTick v) (takeTick (endResponse s)) = .next t) ∨
    (∃ w i, s.ports.tick = none ∧ s.ports.cmd = some w ∧ decode (.cmd w) = .ok i ∧
      (∀ n a0 b0 a1 b1, i ≠ .tick n a0 b0 a1 b1) ∧ exec i (popClock (endResponse s)) = .next t) ∨
    (s.ports.tick = none ∧ SameControl s t) := by
  cases stepCase_of_step h with
  | reset hreset _ => rw [hrst] at hreset; cases hreset
  | tick v _ htick hexec => exact .inl ⟨v, htick, hexec⟩
  | frame d r i u _ htick _ hlatch hdec hexec ht =>
    rw [exec_of_latchedFrame (s := endResponse s) hlatch hdec] at hexec
    cases hexec
    exact .inr (.inr ⟨htick, by simp [SameControl, ht]⟩)
  | rest d _ htick _ _ ht => exact .inr (.inr ⟨htick, by simp [SameControl, ht]⟩)
  | quiet _ htick _ _ ht => exact .inr (.inr ⟨htick, by simp [SameControl, ht]⟩)
  | command w i _ htick _ hcmd hdec hexec =>
    exact .inr (.inl ⟨w, i, htick, hcmd, hdec, decodeCmd_ne_tick hdec, hexec⟩)
  | reserved w e _ htick _ _ _ ht => exact .inr (.inr ⟨htick, by simp [SameControl, ht]⟩)

/-- What a step that is no reset makes of encoder `i`. -/
theorem step_enc_cases {s t : State} (hrst : s.ports.rst = false) (h : step s = .next t) (i : EncIdx) :
    (∃ v, s.ports.tick = some v ∧ t.enc i = tickEnc v i (s.enc i)) ∨
    (s.ports.tick = none ∧ t.enc i = s.enc i) ∨
    (s.ports.tick = none ∧ (∃ w, s.ports.cmd = some w ∧ decode (.cmd w) = .ok (.rdenc i)) ∧
      t.enc i = { s.enc i with changed := false }) := by
  rcases step_control_cases hrst h with ⟨v, htick, hexec⟩ | ⟨w, j, htick, hcmd, hdec, hj, hexec⟩ | ⟨htick, hsame⟩
  · exact .inl ⟨v, htick, by simpa [State.enc] using exec_decodeTick_enc hexec i⟩
  · rcases exec_enc_cases hexec hj i with heq | ⟨rfl, heq⟩
    · exact .inr (.inl ⟨htick, heq⟩)
    · exact .inr (.inr ⟨htick, ⟨w, hcmd, hdec⟩, heq⟩)
  · exact .inr (.inl ⟨htick, sameControl_enc hsame i⟩)

/-- What a step that is no reset makes of the button. -/
theorem step_btn_cases {s t : State} (hrst : s.ports.rst = false) (h : step s = .next t) :
    (∃ v, s.ports.tick = some v ∧ t.btn = tickBtn v s.btn) ∨
    (s.ports.tick = none ∧ t.btn = s.btn) ∨
    (s.ports.tick = none ∧ (∃ w, s.ports.cmd = some w ∧ decode (.cmd w) = .ok .rdbtn) ∧
      t.btn = { s.btn with changed := false }) := by
  rcases step_control_cases hrst h with ⟨v, htick, hexec⟩ | ⟨w, j, htick, hcmd, hdec, hj, hexec⟩ | ⟨htick, hsame⟩
  · exact .inl ⟨v, htick, by simpa using exec_decodeTick_btn hexec⟩
  · rcases exec_btn_cases hexec hj with heq | ⟨rfl, heq⟩
    · exact .inr (.inl ⟨htick, heq⟩)
    · exact .inr (.inr ⟨htick, ⟨w, hcmd, hdec⟩, heq⟩)
  · obtain ⟨-, -, hbtn⟩ := hsame
    exact .inr (.inl ⟨htick, hbtn⟩)

/-! ### The flags -/

/-- ENC.STEP counts and sets the flag, or leaves both position and flag (R18, R58). -/
theorem encStep_cases (a b : Bool) (e : Encoder) :
    (encStep a b e).changed = true ∨ ((encStep a b e).pos = e.pos ∧ (encStep a b e).changed = e.changed) := by
  unfold encStep
  split
  · exact .inl rfl
  · exact .inr ⟨rfl, rfl⟩

/-- BTN.STEP toggles and sets the flag, or leaves both enable and flag (R18, R56). -/
theorem btnStep_cases (n : Bool) (b : Button) :
    (btnStep n b).changed = true ∨ ((btnStep n b).enabled = b.enabled ∧ (btnStep n b).changed = b.changed) := by
  unfold btnStep
  split
  · exact .inr ⟨rfl, rfl⟩
  · split
    · split
      · exact .inl rfl
      · exact .inr ⟨rfl, rfl⟩
    · exact .inr ⟨rfl, rfl⟩

/-- A flag that a step other than a reset clears was cleared by RDENC of that encoder (R18). -/
theorem step_clears_encChanged {s t : State} {i : EncIdx} (hrst : s.ports.rst = false) (h : step s = .next t)
    (hset : (s.enc i).changed = true) (hclear : (t.enc i).changed = false) :
    s.ports.tick = none ∧ ∃ w, s.ports.cmd = some w ∧ decode (.cmd w) = .ok (.rdenc i) := by
  rcases step_enc_cases hrst h i with ⟨v, -, heq⟩ | ⟨-, heq⟩ | ⟨htick, hcmd, -⟩
  · rcases encStep_cases _ _ (s.enc i) with hflag | ⟨-, hflag⟩
    · rw [heq, tickEnc, hflag] at hclear; cases hclear
    · rw [heq, tickEnc, hflag, hset] at hclear; cases hclear
  · rw [heq, hset] at hclear; cases hclear
  · exact ⟨htick, hcmd⟩

/-- A flag that a step other than a reset clears was cleared by RDBTN (R18). -/
theorem step_clears_btnChanged {s t : State} (hrst : s.ports.rst = false) (h : step s = .next t)
    (hset : s.btn.changed = true) (hclear : t.btn.changed = false) :
    s.ports.tick = none ∧ ∃ w, s.ports.cmd = some w ∧ decode (.cmd w) = .ok .rdbtn := by
  rcases step_btn_cases hrst h with ⟨v, -, heq⟩ | ⟨-, heq⟩ | ⟨htick, hcmd, -⟩
  · rcases btnStep_cases _ s.btn with hflag | ⟨-, hflag⟩
    · rw [heq, tickBtn, hflag] at hclear; cases hclear
    · rw [heq, tickBtn, hflag, hset] at hclear; cases hclear
  · rw [heq, hset] at hclear; cases hclear
  · exact ⟨htick, hcmd⟩

/-- A count leaves its flag set (R18). -/
theorem step_encChanged_of_pos_ne {s t : State} {i : EncIdx} (hrst : s.ports.rst = false) (h : step s = .next t)
    (hpos : (t.enc i).pos ≠ (s.enc i).pos) : (t.enc i).changed = true := by
  rcases step_enc_cases hrst h i with ⟨v, -, heq⟩ | ⟨-, heq⟩ | ⟨-, -, heq⟩
  · rw [heq, tickEnc] at hpos ⊢
    exact (encStep_cases _ _ _).resolve_right fun hkeep => hpos hkeep.1
  · exact absurd (by rw [heq]) hpos
  · exact absurd (by rw [heq]) hpos

/-- A toggle leaves its flag set (R18). -/
theorem step_btnChanged_of_enabled_ne {s t : State} (hrst : s.ports.rst = false) (h : step s = .next t)
    (hen : t.btn.enabled ≠ s.btn.enabled) : t.btn.changed = true := by
  rcases step_btn_cases hrst h with ⟨v, -, heq⟩ | ⟨-, heq⟩ | ⟨-, -, heq⟩
  · rw [heq, tickBtn] at hen ⊢
    exact (btnStep_cases _ _).resolve_right fun hkeep => hen hkeep.1
  · exact absurd (by rw [heq]) hen
  · exact absurd (by rw [heq]) hen

/-- Settles O23: stickiness and completeness, each by what a step can make of an encoder and of the button. -/
theorem flagsAreStickyAndComplete : Obligations.FlagsAreStickyAndComplete := fun _ _ hrst h =>
  ⟨fun _ => step_clears_encChanged hrst h, step_clears_btnChanged hrst h,
    fun _ => step_encChanged_of_pos_ne hrst h, step_btnChanged_of_enabled_ne hrst h⟩

end Sys2Proof.Machine
end

section
/-! SUPPORT. A transfer neither reads nor writes the Shared Control State (10_state.md R20), so a tick inside it
commutes with the rest of it (20_memory.md R35, 60_exceptions.md R89). -/

namespace Sys2Proof.Machine

/-- `s` with the Shared Control State (R13) of `c`. -/
def State.withControl (c s : State) : State := { s with enc0 := c.enc0, enc1 := c.enc1, btn := c.btn }

theorem byteStep_withControl (c s : State) : byteStep (.withControl c s) = .withControl c (byteStep s) := by
  rcases s with ⟨_, _, _, q, _⟩
  cases q with
  | idle | dacB0 | dacB1 | adcB0 | adcB1 | adcB2 => rfl

theorem runXfer_withControl (c s : State) : runXfer (.withControl c s) = .withControl c (runXfer s) := by
  simp only [runXfer, byteStep_withControl]

theorem complete_withControl (d : Dev) (c s : State) : complete d (.withControl c s) = .withControl c (complete d s) := by
  cases d with
  | dac | adc => rfl

theorem endResponse_withControl (c s : State) : endResponse (.withControl c s) = .withControl c (endResponse s) := rfl

/-- The rest of a transfer, in a step, commutes with any change of the Shared Control State. -/
theorem step_withControl_of_busy {c s : State} (hrst : s.ports.rst = false) (htick : s.ports.tick = none)
    (hseq : s.seq ≠ .idle) : ∃ u, step s = .next u ∧ step (.withControl c s) = .next (.withControl c u) := by
  obtain ⟨d, hdev⟩ := Seq.exists_dev hseq
  refine ⟨_, step_of_busy hrst htick hdev, ?_⟩
  rw [step_of_busy (s := .withControl c s) hrst htick hdev, endResponse_withControl, runXfer_withControl,
    complete_withControl]

theorem takeTick_of_no_command {s : State} (h : s.ports.cmd = none) : takeTick s = popClock s := by
  simp [takeTick, h]

/-- A step that takes a tick alone: its effect is one on the Shared Control State. -/
theorem step_of_tickClock {s k : State} {v : TickVec} {cs : List Clock} (hcs : s.clocks = tickClock v :: cs)
    (hk : exec (decodeTick v) s = .next k) :
    step s = .next (.withControl k (endResponse { s with clocks := cs })) := by
  have hports : s.ports = tickClock v := by simp [State.ports, hcs]
  have htake : take (endResponse s) = .instr (decodeTick v) (takeTick (endResponse s)) none := by
    simp [take, hports, tickClock]
  have hpop : takeTick (endResponse s) = endResponse { s with clocks := cs } := by
    rw [takeTick_of_no_command (by simp [hports, tickClock])]
    simp [popClock, endResponse, hcs]
  rw [step_of_take_instr htake, hpop, exec_decodeTick]
  cases hk
  rfl

/-- A run goes on from where its first step leads. -/
theorem core_run_succ {s s' : State} (h : step s = .next s') (n : Nat) :
    Sys2Proof.core.run (n + 1) s = Sys2Proof.core.run n s' := by
  have hstep : Sys2Proof.core.step s = .next s' := h
  simp only [Host.Core.run, hstep]

/-- Settles O47: the tick is a change of the Shared Control State, and the rest of the transfer commutes with it. -/
theorem tickInsideATransferDisturbsNothing : Obligations.TickInsideATransferDisturbsNothing := by
  intro s v rest hseq hclocks
  obtain ⟨k, hk⟩ := exec_next (decodeTick v) s
  obtain ⟨u, hu, hku⟩ := step_withControl_of_busy (c := k) (s := endResponse { s with clocks := Clock.quiet :: rest })
    rfl rfl hseq
  have hrun : Sys2Proof.core.run 2 s = .next (.withControl k u) :=
    (core_run_succ (step_of_tickClock hclocks hk) 1).trans (core_run_succ hku 0)
  exact ⟨.withControl k u, u, k, hrun, hu, hk, ⟨rfl, rfl, rfl, rfl⟩, rfl, ⟨rfl, rfl, rfl⟩, ⟨rfl, rfl, rfl⟩⟩

end Sys2Proof.Machine
end

section
/-! SUPPORT. The claims on reset, on the DAC's view of the history, on the output pins and on the walk of the sequencer
(10_state.md R20 to R24). -/

namespace Sys2Proof.Machine

/-! ### Reset -/

theorem enc_reset (i : EncIdx) : State.reset.enc i = ⟨0, false, false⟩ := by
  obtain rfl | rfl := encIdx_cases i
  · rfl
  · rfl

/-- Phase A is LOW after reset, so the first tick counts wherever its A is HIGH (R24, R97). -/
theorem encStep_reset_pos (a b : Bool) :
    (encStep a b Encoder.reset).pos.toInt = if a then (if b then -1 else 1) else 0 := by
  cases a with
  | false => rfl
  | true => cases b with
    | false | true => decide

/-- Settles O1: the reset values by evaluation, the first tick by `encStep_reset_pos`. -/
theorem resetLeavesTheSpecValues : Obligations.ResetLeavesTheSpecValues :=
  ⟨enc_reset, rfl, rfl, rfl, rfl, rfl, rfl, rfl, rfl, rfl, rfl, rfl, fun _ a0 b0 a1 b1 =>
    ⟨_, rfl, encStep_reset_pos a0 b0, encStep_reset_pos a1 b1⟩⟩

/-- Settles O45: nothing is latched and nothing has been sent. -/
theorem wireInvariantAtReset : Obligations.WireInvariantAtReset := by
  constructor
  · trivial
  · intro ev hev
    cases hev

/-! ### The DAC's view -/

/-- A DAC frame becomes the view of its own channel. -/
theorem dacView_append_dacFrame (log : List SpiEvent) (b0 b1 : Byte) (c : DacChan) :
    dacView (log ++ [.dacFrame b0 b1]) c =
      if (decDac b0 b1).c = c then some (decDac b0 b1) else dacView log c := by
  simp [dacView, List.foldl_append]

/-- The DAC does not see ADC transfers (R29). -/
theorem dacView_append_adcXfer (log : List SpiEvent) (t0 t1 t2 r0 r1 r2 : Byte) (c : DacChan) :
    dacView (log ++ [.adcXfer t0 t1 t2 r0 r1 r2]) c = dacView log c := by
  simp [dacView, List.foldl_append]

/-- Settles O40, by the last event of the history. -/
theorem dacViewIsTheLastFrame : Obligations.DacViewIsTheLastFrame :=
  ⟨fun _ => rfl, dacView_append_dacFrame, dacView_append_adcXfer⟩

/-! ### The pins -/

theorem oe_eq_enabled_iff (s : State) : s.oe = .ENABLED ↔ s.btn.enabled = true := by
  simp [State.oe]

theorem oe_eq_disabled_iff (s : State) : s.oe = .DISABLED ↔ s.btn.enabled = false := by
  simp [State.oe]

theorem regEn_eq (s : State) : s.regEn = some s.btn.enabled := rfl

theorem csDacN_eq_false_iff (s : State) : s.csDacN = false ↔ s.seq = .dacB0 ∨ s.seq = .dacB1 := by
  cases hseq : s.seq <;> simp [State.csDacN, Seq.dev, hseq]

theorem csAdcN_eq_false_iff (s : State) :
    s.csAdcN = false ↔ s.seq = .adcB0 ∨ s.seq = .adcB1 ∨ s.seq = .adcB2 := by
  cases hseq : s.seq <;> simp [State.csAdcN, Seq.dev, hseq]

/-- The two devices are never selected together (R21). -/
theorem not_both_selected (s : State) : ¬ (s.csDacN = false ∧ s.csAdcN = false) := by
  rintro ⟨hdac, hadc⟩
  have hd : s.seq.dev = some .dac := by simpa [State.csDacN] using hdac
  have ha : s.seq.dev = some .adc := by simpa [State.csAdcN] using hadc
  rw [hd] at ha
  cases ha

/-- The port is ready exactly when no device is selected (R20, R82). -/
theorem cmdReady_iff (s : State) : s.cmdReady = true ↔ s.csDacN = true ∧ s.csAdcN = true := by
  cases hseq : s.seq <;> simp [State.cmdReady, State.csDacN, State.csAdcN, Seq.dev, hseq]

/-- Settles O53, pin by pin. -/
theorem outputPinsFollowTheState : Obligations.OutputPinsFollowTheState := by
  intro s
  refine ⟨oe_eq_enabled_iff s, ?_, ?_, csDacN_eq_false_iff s, csAdcN_eq_false_iff s, not_both_selected s, ?_,
    cmdReady_iff s⟩
  · intro hoe
    simp [State.ledDis, regEn_eq, (oe_eq_disabled_iff s).1 hoe]
  · intro hoe
    simp [State.ledDis, regEn_eq, (oe_eq_enabled_iff s).1 hoe]
  · intro hidle
    simp [State.idleLines, hidle]

/-- Settles O54: one arm of the byte step for each place of the sequencer. -/
theorem sequencerWalksEveryByte : Obligations.SequencerWalksEveryByte := by
  intro s
  refine ⟨?_, fun b0 b1 => startDac_seq b0 b1 s, fun t => startAdc_seq t s⟩
  cases hseq : s.seq with
  | idle | dacB0 | dacB1 | adcB0 | adcB1 | adcB2 => simp [byteStep, hseq]

end Sys2Proof.Machine
end

section
/-! SUPPORT. The rules of the step for a tick, for a command at an idle port and for a quiet clock (20_memory.md R36,
44_host_access.md R82, 60_exceptions.md R88, R89), and from them the claims on the order of a tick and a command and on
the two reads (20_memory.md R30, R34). -/

namespace Sys2Proof.Machine

/-! ### What stands on the ports after a tick -/

/-- A command beside the tick is alone on the port once the tick is taken (R36). -/
theorem takeTick_clocks_of_command {s : State} {w : CmdWord} (h : s.ports.cmd = some w) :
    (takeTick s).clocks = cmdClock w :: s.clocks.tail := by
  simp [takeTick, h, cmdClock]

theorem ports_of_clocks_cons {s : State} {c : Clock} {cs : List Clock} (h : s.clocks = c :: cs) : s.ports = c := by
  simp [State.ports, h]

/-! ### One rule of the step for each input -/

/-- An instruction that completes no frame's command is all the step does. -/
theorem step_of_take_instr_none {s s' : State} {i : Instr} (h : take (endResponse s) = .instr i s' none) :
    step s = exec i s' := by
  obtain ⟨t, ht⟩ := exec_next i s'
  rw [step_of_take_instr h, ht]
  rfl

/-- A tick on the ports is the instruction the step runs (R36, R88). -/
theorem step_of_tick {s : State} {v : TickVec} (hrst : s.ports.rst = false) (htick : s.ports.tick = some v) :
    step s = exec (decodeTick v) (takeTick (endResponse s)) :=
  step_of_take_instr_none (by simp [take, hrst, htick])

/-- An idle port runs the command that stands on it, its clock consumed (R82). -/
theorem step_of_command {s : State} {w : CmdWord} {i : Instr} (hrst : s.ports.rst = false)
    (htick : s.ports.tick = none) (hidle : s.seq = .idle) (hcmd : s.ports.cmd = some w)
    (hdec : decode (.cmd w) = .ok i) : step s = exec i (popClock (endResponse s)) :=
  step_of_take_instr_none (by simp [take, takeCommand, hrst, htick, hidle, hcmd, hdec, Seq.dev])

/-- An idle port on which nothing stands waits (R82; log entry 20). -/
theorem step_of_quiet {s : State} (hquiet : s.ports = Clock.quiet) (hidle : s.seq = .idle) :
    step s = .next (popClock (endResponse s)) :=
  step_of_take_other (by simp [take, takeCommand, hquiet, hidle, Clock.quiet, Seq.dev])

/-! ### What an operation leaves unchanged -/

/-- A tick writes nothing but the Shared Control State (R20, R55). -/
theorem exec_decodeTick_frame {v : TickVec} {s t : State} (h : exec (decodeTick v) s = .next t) :
    SameWire s t ∧ SameInputs s t ∧ t.rsp = s.rsp := by
  cases h
  exact ⟨⟨rfl, rfl, rfl, rfl⟩, ⟨rfl, rfl, rfl⟩, rfl⟩

@[simp] theorem clearEncChanged_clocks (i : EncIdx) (s : State) : (s.clearEncChanged i).clocks = s.clocks :=
  setEnc_clocks _ _ _

/-- No operation touches the clocks still to come: only the step consumes them (log entry 2). -/
theorem exec_clocks {i : Instr} {s t : State} (h : exec i s = .next t) : t.clocks = s.clocks := by
  cases i with
  | rdenc k => cases h; simp
  | tick | rdbtn | caldac0 | caldac1 | caladc0 | caladc1 | caladc2 | caladc3 | dacwr | adcrd | dacFrame | adcFrame =>
    cases h; rfl

/-- With no response standing there is none to end. -/
theorem endResponse_of_none {s : State} (h : s.rsp = none) : endResponse s = s := by
  rw [endResponse, ← h]

/-! ### The two reads -/

theorem exec_rdenc (i : EncIdx) (s : State) :
    exec (.rdenc i) s = .next (respond (s.enc i).changed (s.enc i).pos (s.clearEncChanged i)) := rfl

theorem exec_rdbtn (s : State) :
    exec .rdbtn s =
      .next (respond s.btn.changed ((BitVec.ofBool s.btn.enabled).setWidth 16) s.clearBtnChanged) := rfl

@[simp] theorem clearEncChanged_enc (i : EncIdx) (s : State) :
    (s.clearEncChanged i).enc i = { s.enc i with changed := false } := setEnc_enc _ _ _

/-- Settles O20: the first read clears the flag and leaves the value. -/
theorem secondReadReturnsFlagZero : Obligations.SecondReadReturnsFlagZero := by
  constructor
  · intro i s
    exact ⟨_, _, exec_rdenc i s, exec_rdenc i _, by simp⟩
  · intro s
    exact ⟨_, _, exec_rdbtn s, exec_rdbtn _, by simp⟩

/-! ### Claims on one clock -/

/-- Settles O3, by the rule for a tick and what `takeTick` leaves on the ports. -/
theorem stepTakesTheTickFirst : Obligations.StepTakesTheTickFirst := by
  intro s v hrst htick
  refine ⟨step_of_tick hrst htick, fun w hcmd => ?_, fun hcmd => ?_⟩
  · exact ports_of_clocks_cons (takeTick_clocks_of_command (s := endResponse s) hcmd)
  · rw [takeTick_of_no_command (s := endResponse s) hcmd]
    rfl

/-- Settles O6, by the rule for a quiet clock. -/
theorem quietClockOnlyEndsTheResponse : Obligations.QuietClockOnlyEndsTheResponse :=
  fun _ hquiet hidle => step_of_quiet hquiet hidle

/-- Settles O17: neither taking the strobe nor the tick itself touches the wire. -/
theorem tickStepTouchesNoSpi : Obligations.TickStepTouchesNoSpi := by
  intro s t hrst htick h
  obtain ⟨v, hv⟩ := Option.ne_none_iff_exists'.1 htick
  rw [step_of_tick hrst hv] at h
  obtain ⟨⟨hseq, htx, hrx, hlog⟩, ⟨-, hmiso, hdrawn⟩, -⟩ := exec_decodeTick_frame h
  have hseq' : t.seq = s.seq := by simpa using hseq
  exact ⟨⟨hseq', by simpa using htx, by simpa using hrx, by simpa using hlog⟩, by simpa using hmiso,
    by simpa using hdrawn, by simp [State.csDacN, hseq'], by simp [State.csAdcN, hseq']⟩

/-- Settles O22: the tick's result has the command alone on an idle port, so the next step runs it there. -/
theorem sameClockCommandSeesTheTick : Obligations.SameClockCommandSeesTheTick := by
  intro s v w i hports hready hdec
  obtain ⟨u, hu⟩ := exec_next (decodeTick v) (takeTick (endResponse s))
  obtain ⟨t, ht⟩ := exec_next i (popClock u)
  obtain ⟨⟨hseq, -⟩, ⟨hclocks, -⟩, hrsp⟩ := exec_decodeTick_frame hu
  have hidle : u.seq = .idle := hseq.trans (by simpa [State.cmdReady] using hready)
  have hleft : u.clocks = cmdClock w :: s.clocks.tail :=
    hclocks.trans (takeTick_clocks_of_command (s := endResponse s) (by simp [hports]))
  have hfirst : step s = .next u := (step_of_tick (by simp [hports]) (by simp [hports])).trans hu
  have hsecond : step u = .next t := by
    have huports : u.ports = cmdClock w := ports_of_clocks_cons hleft
    rw [step_of_command (by simp [huports, cmdClock]) (by simp [huports, cmdClock]) hidle
      (by simp [huports, cmdClock]) hdec, endResponse_of_none (by simp [hrsp]), ht]
  have hrun : Sys2Proof.core.run 2 s = .next t := (core_run_succ hfirst 1).trans (core_run_succ hsecond 0)
  refine ⟨u, t, hu, ht, hrun, by rw [exec_clocks ht]; simp [hleft], ?_, ?_⟩
  · rintro k rfl
    cases ht
    exact ⟨rfl, by simp⟩
  · rintro rfl
    cases ht
    exact ⟨rfl, rfl⟩

end Sys2Proof.Machine
end

section
/-! SUPPORT. The shape of a transfer's waveform: which chip select it holds and how long it lasts (20_memory.md R29,
R30, R32). -/

namespace Sys2Proof.Machine

/-! ### The chip selects -/

/-- In every clock of the piece the pins are those of a transfer to device `d` (R29). -/
def Selects (d : Dev) (ps : List PinSample) : Prop := ∀ p ∈ ps, ∃ c b, p = selected d c b

theorem Selects.append {d : Dev} {ps qs : List PinSample} (hp : Selects d ps) (hq : Selects d qs) :
    Selects d (ps ++ qs) := fun p h => (List.mem_append.1 h).elim (hp p) (hq p)

theorem selects_marginWave (d : Dev) (x k n : Nat) : Selects d (marginWave d x k n) := by
  intro p hp
  obtain ⟨j, -, rfl⟩ := List.mem_map.1 hp
  exact ⟨_, _, rfl⟩

theorem selects_bitWave (d : Dev) (b : Bool) : Selects d (bitWave d b) :=
  .append (fun _ hp => ⟨_, _, List.eq_of_mem_replicate hp⟩) (fun _ hp => ⟨_, _, List.eq_of_mem_replicate hp⟩)

theorem selects_byteWave (d : Dev) (b : Byte) : Selects d (byteWave d b) := by
  intro p hp
  obtain ⟨bit, -, hbit⟩ := List.mem_flatMap.1 hp
  exact selects_bitWave d bit p hbit

theorem selects_bytesWave (d : Dev) (x k : Nat) (bytes : List Byte) : Selects d (bytesWave d x k bytes) := by
  induction bytes generalizing k with
  | nil => cases k <;> exact nofun
  | cons b bs ih =>
    cases k with
    | zero => exact (selects_byteWave d b).append (ih 1)
    | succ k => exact ((selects_marginWave d x _ _).append (selects_byteWave d b)).append (ih (k + 2))

theorem selects_frameWave (d : Dev) (x : Nat) (bytes : List Byte) : Selects d (frameWave d x bytes) :=
  ((selects_marginWave d x _ _).append (selects_bytesWave d x 0 bytes)).append (selects_marginWave d x _ _)

/-- Settles O57: every clock of the waveform is one of `selected d`. -/
theorem chipSelectHeldForTheWholeFrame : Obligations.ChipSelectHeldForTheWholeFrame := by
  intro d x bytes p hp
  obtain ⟨c, b, rfl⟩ := selects_frameWave d x bytes p hp
  cases d with
  | dac | adc => simp [selected]

/-! ### The length -/

@[simp] theorem length_marginWave (d : Dev) (x k n : Nat) : (marginWave d x k n).length = n := by
  simp [marginWave]

/-- Eight bits of `SPI_DIV` = 4 clocks each (R32). -/
@[simp] theorem length_byteWave (d : Dev) (b : Byte) : (byteWave d b).length = 32 := rfl

/-- After the first byte each one comes with the gap before it (R32). -/
theorem length_bytesWave_succ (d : Dev) (x k : Nat) (bytes : List Byte) :
    (bytesWave d x (k + 1) bytes).length = bytes.length * (Config.tIbg + 32) := by
  induction bytes generalizing k with
  | nil => simp [bytesWave]
  | cons b bs ih => simp [bytesWave, ih, Nat.add_mul]; omega

theorem length_frameWave_cons (d : Dev) (x : Nat) (b : Byte) (bs : List Byte) :
    (frameWave d x (b :: bs)).length =
      Config.tCss + 32 * (bs.length + 1) + bs.length * Config.tIbg + Config.tCsh := by
  simp only [frameWave, bytesWave, List.length_append, length_marginWave, length_byteWave, length_bytesWave_succ,
    Nat.mul_add]
  omega

/-- Settles O58: the exact length bounds that of the two bytes of a DAC frame and the three of an ADC transfer. -/
theorem transferLength : Obligations.TransferLength := by
  refine ⟨length_frameWave_cons, fun x ev => ?_⟩
  cases ev with
  | dacFrame b0 b1 =>
    refine ⟨fun _ => ?_, nofun⟩
    rw [SpiEvent.wave, SpiEvent.sent, length_frameWave_cons, List.length_singleton]
    omega
  | adcXfer t0 t1 t2 r0 r1 r2 =>
    refine ⟨nofun, fun _ => ?_⟩
    rw [SpiEvent.wave, SpiEvent.sent, length_frameWave_cons, List.length_cons, List.length_singleton]
    omega

end Sys2Proof.Machine
end

section
/-! SUPPORT. What is sampled at the rising edges of `spi_sclk` over a whole transfer, for any line of the bus, and what
a receiver makes of eight bits (20_memory.md R27, R32). From it the claim on `spi_mosi`. -/

namespace Sys2Proof.Machine

/-! ### The edges of a transfer -/

/-- The levels of a line at the eight rising edges of byte `b`, sent from clock number `n` on (R32). -/
def byteEdges (line : BusSample → Bool) (m : Nat → Bool) (d : Dev) (n : Nat) (b : Byte) : List Bool :=
  (List.range 8).map fun j => line ⟨selected d true (b.getLsbD (7 - j)), m (n + 4 * j + 2)⟩

@[simp] theorem length_byteEdges (line : BusSample → Bool) (m : Nat → Bool) (d : Dev) (n : Nat) (b : Byte) :
    (byteEdges line m d n b).length = 8 := rfl

/-- The same for bytes sent with the gap `T_IBG` between them, the first one from clock number `n` on (R32). -/
def bytesEdges (line : BusSample → Bool) (m : Nat → Bool) (d : Dev) : Nat → List Byte → List Bool
  | _, [] => []
  | n, b :: bs => byteEdges line m d n b ++ bytesEdges line m d (n + 32 + Config.tIbg) bs

/-- A piece of the waveform in which `spi_sclk` stays 0. -/
def StaysLow (ps : List PinSample) : Prop := ∀ p ∈ ps, p.sclk = false

theorem StaysLow.startsLow {ps : List PinSample} (h : StaysLow ps) : StartsLow ps :=
  fun p hp => h p (List.mem_of_mem_head? hp)

theorem staysLow_marginWave (d : Dev) (x k n : Nat) : StaysLow (marginWave d x k n) := by
  intro p hp
  obtain ⟨j, -, rfl⟩ := List.mem_map.1 hp
  rfl

theorem edgesFrom_of_staysLow (line : BusSample → Bool) (m : Nat → Bool) (prev : Bool) (n : Nat)
    {ps : List PinSample} (h : StaysLow ps) : edgesFrom line m prev n ps = [] := by
  rw [← List.append_nil ps, edgesFrom_low line m ps [] h nofun]
  rfl

theorem startsLow_bytesWave (d : Dev) (x k : Nat) (bytes : List Byte) {tl : List PinSample} (h : StaysLow tl) :
    StartsLow (bytesWave d x k bytes ++ tl) := by
  cases bytes with
  | nil => cases k <;> exact h.startsLow
  | cons b bs =>
    cases k with
    | zero => rw [bytesWave, List.append_assoc]; exact startsLow_byteWave d b _
    | succ k =>
      rw [bytesWave, List.append_assoc, List.append_assoc]
      exact startsLow_marginWave d x _ _ _ (startsLow_byteWave d b _)

/-- The edges of the bytes after the first, whose clocks begin with a gap. -/
theorem edgesFrom_bytesWave_succ (line : BusSample → Bool) (m : Nat → Bool) (d : Dev) (x k n : Nat)
    (bytes : List Byte) {tl : List PinSample} (h : StaysLow tl) :
    edgesFrom line m false n (bytesWave d x (k + 1) bytes ++ tl) = bytesEdges line m d (n + Config.tIbg) bytes := by
  induction bytes generalizing k n with
  | nil => exact edgesFrom_of_staysLow line m false n h
  | cons b bs ih =>
    rw [bytesWave, List.append_assoc, List.append_assoc,
      edgesFrom_marginWave line m false n d x _ _ _ (startsLow_byteWave d b _),
      edgesFrom_byteWave line m false _ d b _ (startsLow_bytesWave d x (k + 2) bs h), ih (k + 1)]
    rfl

/-- The edges of a whole transfer: those of its bytes, the first of which begins after the margin `T_CSS`. -/
theorem edgesFrom_frameWave (line : BusSample → Bool) (m : Nat → Bool) (d : Dev) (x : Nat) (bytes : List Byte) :
    edgesFrom line m false 0 (frameWave d x bytes) = bytesEdges line m d Config.tCss bytes := by
  have htail := staysLow_marginWave d x (Config.tCss + (bytes.length - 1) * Config.tIbg) Config.tCsh
  rw [frameWave, List.append_assoc,
    edgesFrom_marginWave line m false 0 d x _ _ _ (startsLow_bytesWave d x 0 bytes htail), Nat.zero_add]
  cases bytes with
  | nil => exact edgesFrom_of_staysLow line m false _ htail
  | cons b bs =>
    rw [bytesWave, List.append_assoc, edgesFrom_byteWave line m false _ d b _ (startsLow_bytesWave d x 1 bs htail),
      edgesFrom_bytesWave_succ line m d x 0 _ bs htail]
    rfl

/-! ### What the device samples -/

/-- The bits of `spi_mosi` at the edges of the bytes are the bits of the bytes (R27). -/
theorem bytesEdges_mosi (m : Nat → Bool) (d : Dev) (n : Nat) (bytes : List Byte) :
    bytesEdges (fun s => s.pins.mosi) m d n bytes = bytes.flatMap bitsMsbFirst := by
  induction bytes generalizing n with
  | nil => rfl
  | cons b bs ih =>
    rw [bytesEdges, ih, List.flatMap_cons]
    rfl

/-- Settles O55, by the edges of the transfer on the line `spi_mosi`. -/
theorem waveformCarriesTheBytes : Obligations.WaveformCarriesTheBytes := by
  intro d x bytes
  rw [risingBits_eq_edgesFrom (fun _ => false) _ false 0, edgesFrom_frameWave, bytesEdges_mosi]

/-! ### What a receiver makes of eight bits -/

theorem shiftIn_getLsbD_zero (acc : Byte) (b : Bool) : (shiftIn acc b).getLsbD 0 = b := by
  simp [shiftIn]

theorem shiftIn_getLsbD_succ (acc : Byte) (b : Bool) {i : Nat} (h : i + 1 < 8) :
    (shiftIn acc b).getLsbD (i + 1) = acc.getLsbD i := by
  simp [shiftIn, h, BitVec.getLsbD_eq_getElem (show i < 8 by omega)]

/-- The last bit shifted in is bit 0, and the one before it the next higher (R27, R32). -/
theorem byteOfBits_getLsbD (bits : List Bool) {i : Nat} (h : i < 8) :
    (byteOfBits bits).getLsbD i = bits.reverse[i]?.getD false := by
  induction bits using List.reverseRecOn generalizing i with
  | nil => simp [byteOfBits]
  | append_singleton bits b ih =>
    have hstep : byteOfBits (bits ++ [b]) = shiftIn (byteOfBits bits) b := List.foldl_append
    rw [hstep, List.reverse_concat]
    cases i with
    | zero => exact shiftIn_getLsbD_zero _ b
    | succ i => rw [shiftIn_getLsbD_succ _ b h, ih (by omega)]; rfl

/-- Of eight bits sampled, the `j`-th is bit `7 - j` (R27). -/
theorem byteOfBits_map_range_getLsbD (f : Nat → Bool) {j : Nat} (h : j < 8) :
    (byteOfBits ((List.range 8).map f)).getLsbD (7 - j) = f j := by
  rw [byteOfBits_getLsbD _ (by omega), List.getElem?_reverse (by simp; omega)]
  simp [show 7 - (7 - j) = j by omega, h]

/-- Settles O56, bit by bit. -/
theorem sampledBitsGiveTheByte : Obligations.SampledBitsGiveTheByte := by
  intro b
  refine BitVec.eq_of_getLsbD_eq fun i hi => ?_
  have h := byteOfBits_map_range_getLsbD (fun j => b.getLsbD (7 - j)) (j := 7 - i) (by omega)
  rwa [show 7 - (7 - i) = i by omega] at h

end Sys2Proof.Machine
end

section
/-! SUPPORT. What the block receives over a transfer, as a function of the levels of `spi_miso` (20_memory.md R27, R31,
R32), and from it the claims on receiving and on ADCRD (42_adc.md R72, R74). -/

namespace Sys2Proof.Machine

/-! ### The bytes shown -/

/-- The byte `spi_miso` shows in the byte time from clock number `n` on (R27, R32). -/
def shownByte (m : Nat → Bool) (n : Nat) : Byte := byteOfBits ((List.range 8).map fun j => m (n + 4 * j + 2))

/-- The clock of a transfer in which byte `k` begins (R32). -/
def byteStart (k : Nat) : Nat := Config.tCss + k * (32 + Config.tIbg)

theorem bytesOfBits_bytesEdges_miso (m : Nat → Bool) (d : Dev) (n : Nat) (bytes : List Byte) :
    bytesOfBits (bytesEdges BusSample.miso m d n bytes) =
      (List.range bytes.length).map fun k => shownByte m (n + k * (32 + Config.tIbg)) := by
  induction bytes generalizing n with
  | nil => rfl
  | cons b bs ih =>
    rw [bytesEdges, bytesOfBits_append _ _ (length_byteEdges ..), ih, List.length_cons, List.range_succ_eq_map,
      List.map_cons, List.map_map]
    congr 1
    · rw [Nat.zero_mul]; rfl
    · refine List.map_congr_left fun k _ => ?_
      rw [Function.comp_apply, Nat.succ_mul]
      congr 1
      omega

theorem risingMiso_frameBus (d : Dev) (x : Nat) (m : Nat → Bool) (bytes : List Byte) :
    risingMiso false (frameBus d x m bytes) = bytesEdges BusSample.miso m d Config.tCss bytes := by
  rw [risingMiso_eq_edgesFrom, edgesFrom_frameWave]

/-- The block receives one byte for each it sends, and each is what `spi_miso` shows in its byte time. -/
theorem receivedBytes_frameBus (d : Dev) (x : Nat) (m : Nat → Bool) (bytes : List Byte) :
    receivedBytes (frameBus d x m bytes) = (List.range bytes.length).map fun k => shownByte m (byteStart k) := by
  rw [receivedBytes, risingMiso_frameBus, bytesOfBits_bytesEdges_miso]
  rfl

/-- Settles O59: the received byte is the one shown in its byte time, and a shown byte has its bits in wire order. -/
theorem misoIsSampledMsbFirst : Obligations.MisoIsSampledMsbFirst := by
  intro d x m bytes
  rw [receivedBytes_frameBus]
  refine ⟨by simp, fun k j hk hj => ⟨shownByte m (byteStart k), by simp [hk], ?_⟩⟩
  exact byteOfBits_map_range_getLsbD _ hj

/-! ### Levels of `spi_miso` that show given bytes -/

/-- The levels of `spi_miso` over a transfer that show `rs`, each bit for the four clocks of its bit time (R32). -/
def levelsShowing (rs : List Byte) (n : Nat) : Bool :=
  (rs.getD ((n - Config.tCss) / (32 + Config.tIbg)) 0).getLsbD (7 - (n - Config.tCss) % (32 + Config.tIbg) / 4)

theorem levelsShowing_at_edge (rs : List Byte) (k : Nat) {j : Nat} (hj : j < 8) :
    levelsShowing rs (byteStart k + 4 * j + 2) = (rs.getD k 0).getLsbD (7 - j) := by
  have hn : byteStart k + 4 * j + 2 - Config.tCss = 4 * j + 2 + (32 + Config.tIbg) * k := by
    rw [byteStart, Nat.mul_comm k]
    omega
  have hdiv : (4 * j + 2 + (32 + Config.tIbg) * k) / (32 + Config.tIbg) = k := by
    rw [Nat.add_mul_div_left _ _ (by omega), Nat.div_eq_of_lt (by omega), Nat.zero_add]
  have hmod : (4 * j + 2 + (32 + Config.tIbg) * k) % (32 + Config.tIbg) = 4 * j + 2 := by
    rw [Nat.add_mul_mod_self_left, Nat.mod_eq_of_lt (by omega)]
  rw [levelsShowing, hn, hdiv, hmod, show (4 * j + 2) / 4 = j by omega]

theorem shownByte_levelsShowing (rs : List Byte) (k : Nat) :
    shownByte (levelsShowing rs) (byteStart k) = rs.getD k 0 := by
  have hbits : ((List.range 8).map fun j => levelsShowing rs (byteStart k + 4 * j + 2)) =
      bitsMsbFirst (rs.getD k 0) :=
    List.map_congr_left fun j hj => levelsShowing_at_edge rs k (List.mem_range.1 hj)
  rw [shownByte, hbits]
  exact sampledBitsGiveTheByte _

/-! ### What ADCRD receives -/

/-- The eight levels at the head of the input are the next byte received. -/
theorem rxByte_of_miso {s : State} {bits rest : List Bool} (h : s.miso = bits ++ rest) (hlen : bits.length = 8) :
    rxByte s = byteOfBits bits := by
  match bits, hlen with
  | [_, _, _, _, _, _, _, _], _ => simp [rxByte, rxBit, h]

theorem rxAdvance_miso_of_append {s : State} {bits rest : List Bool} (h : s.miso = bits ++ rest)
    (hlen : bits.length = 8) : (rxAdvance s).miso = rest := by
  rw [rxAdvance_miso, h, ← hlen, List.drop_left]

/-- Over levels that begin with what a bus shows in a transfer of three bytes, an ADC transfer receives the bytes shown
and leaves the other levels (R31, R32). -/
theorem rxBytes_of_bus {s : State} {d : Dev} {x : Nat} {m : Nat → Bool} {b0 b1 b2 : Byte} {rest : List Bool}
    (h : s.miso = risingMiso false (frameBus d x m [b0, b1, b2]) ++ rest) :
    receivedBytes (frameBus d x m [b0, b1, b2]) = [(rxBytes s).b0, (rxBytes s).b1, (rxBytes s).b2] ∧
      ((s.miso.drop 8).drop 8).drop 8 = rest := by
  rw [risingMiso_frameBus] at h
  rw [receivedBytes, risingMiso_frameBus]
  simp only [bytesEdges, List.append_assoc, List.nil_append] at h ⊢
  have hm1 := rxAdvance_miso_of_append h (length_byteEdges ..)
  have hm2 := rxAdvance_miso_of_append hm1 (length_byteEdges ..)
  refine ⟨?_, rxAdvance_miso_of_append hm2 (length_byteEdges ..)⟩
  simp only [bytesOfBits_append _ _ (length_byteEdges ..), rxBytes, rxByte_of_miso h (length_byteEdges ..),
    rxByte_of_miso hm1 (length_byteEdges ..), rxByte_of_miso hm2 (length_byteEdges ..)]
  rfl

/-- The sample is the low four bits of the second received byte, then the third (R72). -/
theorem decAdc_eq_append (r : ByteBuf) : decAdc r = r.b1.extractLsb' 0 4 ++ r.b2 := by
  refine BitVec.eq_of_getLsbD_eq fun k hk => ?_
  unfold decAdc
  interval_cases k <;> simp only [BitVec.getLsbD_append] <;> simp

/-- The sample as a number (R72). -/
theorem decAdc_toNat (r : ByteBuf) : (decAdc r).toNat = r.b1.toNat % 16 * 256 + r.b2.toNat := by
  rw [decAdc_eq_append, BitVec.toNat_append, ← Nat.shiftLeft_add_eq_or_of_lt r.b2.isLt, Nat.shiftLeft_eq]
  simp

theorem exec_adcrd (ch : AdcChan) (s : State) :
    exec (.adcrd ch) s = .next (complete .adc (spiXferAdc (encAdc ch) s)) := rfl

/-- Settles O60: ADCRD receives what the bus shows by `rxBytes_of_bus`, and `levelsShowing` shows any bytes. -/
theorem adcrdReceivesWhatTheBusShows : Obligations.AdcrdReceivesWhatTheBusShows := by
  constructor
  · intro ch x m rest s hmiso
    obtain ⟨hshown, hrest⟩ := rxBytes_of_bus hmiso
    refine ⟨_, (rxBytes s).b0, (rxBytes s).b1, (rxBytes s).b2, exec_adcrd ch s, by simp [spiXferAdc_eq, encAdc],
      hshown, by rw [complete_miso, spiXferAdc_eq, hrest], ?_⟩
    rw [← decAdc_toNat, BitVec.ofNat_toNat]
    rfl
  · intro x ev hdev
    cases ev with
    | dacFrame b0 b1 => cases hdev
    | adcXfer t0 t1 t2 r0 r1 r2 =>
      refine ⟨levelsShowing [r0, r1, r2], ?_⟩
      rw [SpiEvent.bus, receivedBytes_frameBus]
      simp only [shownByte_levelsShowing]
      rfl

end Sys2Proof.Machine
end

section
/-! SUPPORT. The command words of Table 30-1 as equations on their fields (30_encoding.md R43, R47, R48, R51). The
encoder joins the fields and the decoder reads them, so each is tied to `CmdFields` once, and every claim on command
words goes through it. -/

namespace Sys2Proof

/-! ### Fields and bits -/

theorem extractLsb'_one_eq_iff {n k : Nat} {w : BitVec n} {f : BitVec 1} :
    w.extractLsb' k 1 = f ↔ w.getLsbD k = f.getLsbD 0 := by
  constructor
  · rintro rfl
    simp
  · intro h
    refine BitVec.eq_of_getLsbD_eq fun j hj => ?_
    obtain rfl : j = 0 := by omega
    simpa using h

theorem extractLsb'_two_eq_iff {n k : Nat} {w : BitVec n} {f : BitVec 2} :
    w.extractLsb' k 2 = f ↔ w.getLsbD (k + 1) = f.getLsbD 1 ∧ w.getLsbD k = f.getLsbD 0 := by
  constructor
  · rintro rfl
    simp
  · rintro ⟨h1, h0⟩
    refine BitVec.eq_of_getLsbD_eq fun j hj => ?_
    obtain rfl | rfl : j = 0 ∨ j = 1 := by omega
    · simpa using h0
    · simpa using h1

theorem extractLsb'_one_eq_ofBool {n : Nat} (w : BitVec n) (k : Nat) :
    w.extractLsb' k 1 = BitVec.ofBool (w.getLsbD k) := by
  simp [extractLsb'_one_eq_iff]

/-- Two neighbouring fields of a word, joined, are a field of it. -/
theorem append_field {n m k s t : Nat} {w : BitVec n} {hi : BitVec m} {lo : BitVec k} (hhi : w.extractLsb' t m = hi)
    (hlo : w.extractLsb' s k = lo) (hs : t = s + k := by rfl) : w.extractLsb' s (m + k) = hi ++ lo := by
  rw [← hhi, ← hlo, BitVec.extractLsb'_append_extractLsb'_eq_extractLsb' hs]

/-- The field of all bits is the word. -/
theorem eq_of_whole_field {n : Nat} {w x : BitVec n} (h : w.extractLsb' 0 n = x) : x = w :=
  h.symm.trans BitVec.extractLsb'_eq_self

/-! ### The fields of each command -/

/-- What Table 30-1 says of the fields of the word of a command: `op`, the bits that must be 0, the channel where it is
part of the operation, and the operands. A tick and the two frames are no commands: no word has their fields. -/
def CmdFields (w : CmdWord) : Instr → Prop
  | .rdenc i => w.extractLsb' 20 4 = 0x1#4 ∧ w.extractLsb' 1 19 = 0#19 ∧ w.extractLsb' 0 1 = i
  | .rdbtn => w.extractLsb' 20 4 = 0x2#4 ∧ w.extractLsb' 0 20 = 0#20
  | .caldac0 t =>
    w.extractLsb' 20 4 = 0x3#4 ∧ w.extractLsb' 17 3 = 0#3 ∧ w.extractLsb' 16 1 = 0#1 ∧ w.extractLsb' 0 16 = t
  | .caldac1 t =>
    w.extractLsb' 20 4 = 0x3#4 ∧ w.extractLsb' 17 3 = 0#3 ∧ w.extractLsb' 16 1 = 1#1 ∧ w.extractLsb' 0 16 = t
  | .caladc0 raw => w.extractLsb' 20 4 = 0x4#4 ∧ w.extractLsb' 14 6 = 0#6 ∧
    w.extractLsb' 12 2 = 0#2 ∧ w.extractLsb' 0 12 = raw
  | .caladc1 raw => w.extractLsb' 20 4 = 0x4#4 ∧ w.extractLsb' 14 6 = 0#6 ∧
    w.extractLsb' 12 2 = 1#2 ∧ w.extractLsb' 0 12 = raw
  | .caladc2 raw => w.extractLsb' 20 4 = 0x4#4 ∧ w.extractLsb' 14 6 = 0#6 ∧
    w.extractLsb' 12 2 = 2#2 ∧ w.extractLsb' 0 12 = raw
  | .caladc3 raw => w.extractLsb' 20 4 = 0x4#4 ∧ w.extractLsb' 14 6 = 0#6 ∧
    w.extractLsb' 12 2 = 3#2 ∧ w.extractLsb' 0 12 = raw
  | .dacwr c g e v => w.extractLsb' 20 4 = 0x5#4 ∧ w.extractLsb' 16 4 = 0#4 ∧ w.extractLsb' 15 1 = c ∧
    w.extractLsb' 14 1 = 0#1 ∧ w.extractLsb' 13 1 = BitVec.ofBool g ∧ w.extractLsb' 12 1 = BitVec.ofBool e ∧
    w.extractLsb' 0 12 = v
  | .adcrd ch => w.extractLsb' 20 4 = 0x6#4 ∧ w.extractLsb' 2 18 = 0#18 ∧ w.extractLsb' 0 2 = ch
  | .tick .. | .dacFrame .. | .adcFrame .. => False

/-- The encoder joins those fields: each of them is the one that was joined. -/
theorem cmdFields_of_encode {w : CmdWord} {i : Instr} (h : encode i = .cmd w) : CmdFields w i := by
  cases i with
  | tick | dacFrame | adcFrame => cases h
  | rdenc | rdbtn | caldac0 | caldac1 | caladc0 | caladc1 | caladc2 | caladc3 | dacwr | adcrd =>
    cases h
    simp (disch := decide) only [CmdFields, BitVec.extractLsb'_append_eq_of_le,
      BitVec.extractLsb'_append_eq_of_add_le]
    simp [BitVec.extractLsb'_eq_self]

/-- A word with those fields is what the encoder joins: the fields cover all 24 bits. -/
theorem encode_of_cmdFields {w : CmdWord} {i : Instr} (h : CmdFields w i) : encode i = .cmd w := by
  cases i with
  | tick | dacFrame | adcFrame => cases h
  | rdbtn =>
    obtain ⟨hop, hz⟩ := h
    exact congrArg _ (eq_of_whole_field (append_field hop hz))
  | rdenc | adcrd =>
    obtain ⟨hop, hz, harg⟩ := h
    exact congrArg _ (eq_of_whole_field (append_field (append_field hop hz) harg))
  | caldac0 | caldac1 | caladc0 | caladc1 | caladc2 | caladc3 =>
    obtain ⟨hop, hz, hch, harg⟩ := h
    exact congrArg _ (eq_of_whole_field (append_field (append_field (append_field hop hz) hch) harg))
  | dacwr =>
    obtain ⟨hop, hz, hc, h14, hg, he, hv⟩ := h
    exact congrArg _ (eq_of_whole_field (append_field (append_field (append_field (append_field (append_field
      (append_field hop hz) hc) h14) hg) he) hv))

/-- The decoder reads those fields. -/
theorem decodeCmd_of_cmdFields {w : CmdWord} {i : Instr} (h : CmdFields w i) : decodeCmd w = .ok i := by
  cases i with
  | tick | dacFrame | adcFrame => cases h
  | rdbtn =>
    obtain ⟨hop, hz⟩ := h
    simp [decodeCmd, decodeRdbtn, hop, hz]
  | rdenc | adcrd =>
    obtain ⟨hop, hz, rfl⟩ := h
    simp [decodeCmd, decodeRdenc, decodeAdcrd, hop, hz]
  | caldac0 | caldac1 =>
    obtain ⟨hop, hz, hch, rfl⟩ := h
    simp only [decodeCmd, decodeCaldac, hop, hz, extractLsb'_one_eq_iff.1 hch]
    rfl
  | caladc0 | caladc1 | caladc2 | caladc3 =>
    obtain ⟨hop, hz, hch, rfl⟩ := h
    obtain ⟨h13, h12⟩ := extractLsb'_two_eq_iff.1 hch
    simp only [decodeCmd, decodeCaladc, hop, hz, h13, h12]
    rfl
  | dacwr =>
    obtain ⟨hop, hz, rfl, h14, hg, he, rfl⟩ := h
    simp only [decodeCmd, decodeDacwr, hop, hz, extractLsb'_one_eq_iff.1 h14, extractLsb'_one_eq_iff.1 hg,
      extractLsb'_one_eq_iff.1 he]
    simp

/-- What the decoder answers has those fields: they are what its branches test and return. -/
theorem cmdFields_of_decodeCmd {w : CmdWord} {i : Instr} (h : decodeCmd w = .ok i) : CmdFields w i := by
  unfold decodeCmd decodeRdenc decodeRdbtn decodeCaldac decodeCaladc decodeDacwr decodeAdcrd at h
  split_ifs at h
  all_goals cases h
  all_goals simp_all [CmdFields, extractLsb'_one_eq_iff, extractLsb'_two_eq_iff]

/-- Decoder and encoder of command words are inverse to each other. -/
theorem decodeCmd_eq_ok_iff {w : CmdWord} {i : Instr} : decodeCmd w = .ok i ↔ encode i = .cmd w :=
  ⟨fun h => encode_of_cmdFields (cmdFields_of_decodeCmd h), fun h => decodeCmd_of_cmdFields (cmdFields_of_encode h)⟩

/-! ### Decode of encode and encode of decode, on all lines -/

/-- The encoder joins the fields of an ADC query (R40, R71). -/
theorem adcFields_of_encode {q : BitVec 24} {ch : AdcChan} (h : encode (.adcFrame ch) = .adcf q) :
    q.extractLsb' 16 8 = 0x06#8 ∧ q.extractLsb' 14 2 = ch ∧ q.extractLsb' 8 6 = 0#6 ∧
      q.extractLsb' 0 8 = 0x00#8 := by
  cases h
  simp (disch := decide) only [BitVec.extractLsb'_append_eq_of_le, BitVec.extractLsb'_append_eq_of_add_le]
  simp [BitVec.extractLsb'_eq_self]

theorem decode_encode_adcFrame (ch : AdcChan) : decode (encode (.adcFrame ch)) = .ok (.adcFrame ch) := by
  obtain ⟨q, hq⟩ : ∃ q, encode (.adcFrame ch) = .adcf q := ⟨_, rfl⟩
  obtain ⟨hfirst, hch, hmid, hlow⟩ := adcFields_of_encode hq
  have hzero : q.extractLsb' 0 14 = 0 := append_field hmid hlow
  simp only [hq, decode, decodeAdcWire]
  rw [if_pos ⟨hfirst, hzero⟩, hch]

/-- Settles O49: on the command port by `decodeCmd_eq_ok_iff`, on the other lines by the fields joined there. -/
theorem decodeOfEncode : Obligations.DecodeOfEncode := by
  intro i
  cases i with
  | rdenc | rdbtn | caldac0 | caldac1 | caladc0 | caladc1 | caladc2 | caladc3 | dacwr | adcrd =>
    exact decodeCmd_eq_ok_iff.2 rfl
  | tick n a0 b0 a1 b1 =>
    simp (disch := decide) only [decode, encode, decodeTick, BitVec.getLsbD_append]
    simp
  | dacFrame c g e v =>
    simp (disch := decide) only [decode, encode, decodeDacWire, BitVec.getLsbD_append,
      BitVec.extractLsb'_append_eq_of_le, BitVec.extractLsb'_append_eq_of_add_le]
    simp [BitVec.extractLsb'_eq_self]
  | adcFrame ch => exact decode_encode_adcFrame ch

theorem encode_decodeTick (v : TickVec) : encode (decodeTick v) = .tickv v := by
  have hbit := extractLsb'_one_eq_ofBool v
  exact congrArg _ (eq_of_whole_field
    (append_field (append_field (append_field (append_field (hbit 4) (hbit 3)) (hbit 2)) (hbit 1)) (hbit 0)))

theorem encode_of_decodeDacWire {f : BitVec 16} {i : Instr} (h : decodeDacWire f = .ok i) : encode i = .dacf f := by
  obtain ⟨h14, rfl⟩ := Machine.decodeDacWire_eq_ok h
  have hchan : f.extractLsb' 15 1 = f.extractLsb' 15 1 := rfl
  have hzero : f.extractLsb' 14 1 = 0#1 := extractLsb'_one_eq_iff.2 h14
  have hgain : f.extractLsb' 13 1 = BitVec.ofBool (!!f.getLsbD 13) := by
    rw [Bool.not_not, extractLsb'_one_eq_ofBool]
  have hvalue : f.extractLsb' 0 12 = f.extractLsb' 0 12 := rfl
  exact congrArg _ (eq_of_whole_field (append_field (append_field (append_field (append_field hchan hzero) hgain)
    (extractLsb'_one_eq_ofBool f 12)) hvalue))

theorem encode_of_decodeAdcWire {q : BitVec 24} {i : Instr} (h : decodeAdcWire q = .ok i) : encode i = .adcf q := by
  obtain ⟨hfirst, hzero, rfl⟩ := Machine.decodeAdcWire_eq_ok h
  have hchan : q.extractLsb' 14 2 = q.extractLsb' 14 2 := rfl
  have hmid : q.extractLsb' 8 6 = 0#6 := by
    rw [← BitVec.extractLsb'_extractLsb'_of_le (len' := 14) (by decide), hzero]
    rfl
  have hlow : q.extractLsb' 0 8 = 0x00#8 := by
    rw [← BitVec.extractLsb'_extractLsb'_of_le (len' := 14) (by decide), hzero]
    rfl
  exact congrArg _ (eq_of_whole_field (append_field (append_field (append_field hfirst hchan) hmid) hlow))

/-- Settles O50, line by line. -/
theorem encodeOfDecode : Obligations.EncodeOfDecode := by
  intro r i h
  cases r with
  | tickv v => cases h; exact encode_decodeTick v
  | cmd w => exact decodeCmd_eq_ok_iff.1 h
  | dacf f => exact encode_of_decodeDacWire h
  | adcf q => exact encode_of_decodeAdcWire h

/-! ### The rows of the opcode table -/

/-- Every encoding belongs to its row, all instructions together. -/
theorem rowMatch (i : Instr) : Laws.RowMatch.Statement i := by
  cases i with
  | tick n a0 b0 a1 b1 => exact Laws.RowMatch.tick n a0 b0 a1 b1
  | rdenc j => exact Laws.RowMatch.rdenc j
  | rdbtn => exact Laws.RowMatch.rdbtn
  | caldac0 t => exact Laws.RowMatch.caldac0 t
  | caldac1 t => exact Laws.RowMatch.caldac1 t
  | caladc0 raw => exact Laws.RowMatch.caladc0 raw
  | caladc1 raw => exact Laws.RowMatch.caladc1 raw
  | caladc2 raw => exact Laws.RowMatch.caladc2 raw
  | caladc3 raw => exact Laws.RowMatch.caladc3 raw
  | dacwr c g e v => exact Laws.RowMatch.dacwr c g e v
  | adcrd ch => exact Laws.RowMatch.adcrd ch
  | dacFrame c g e v => exact Laws.RowMatch.dacFrame c g e v
  | adcFrame ch => exact Laws.RowMatch.adcFrame ch

theorem opRow_mem_cmdRows {w : CmdWord} {i : Instr} (h : encode i = .cmd w) : opRow i ∈ cmdRows := by
  cases i with
  | tick | dacFrame | adcFrame => cases h
  | rdenc | rdbtn | caldac0 | caldac1 | caladc0 | caladc1 | caladc2 | caladc3 | dacwr | adcrd =>
    simp [opRow, cmdRows]

theorem cmdRows_fit : ∀ r ∈ cmdRows, r.mask < 2 ^ 24 ∧ r.pattern < 2 ^ 24 := by decide

/-- A word that encodes a command matches the row of that command, as numbers. -/
theorem row_of_encode {w : CmdWord} {i : Instr} (h : encode i = .cmd w) :
    w.toNat &&& (opRow i).mask = (opRow i).pattern := by
  obtain ⟨hmask, hpattern⟩ := cmdRows_fit _ (opRow_mem_cmdRows h)
  have hrow := rowMatch i
  simp only [Laws.RowMatch.Statement, h] at hrow
  have hnat := congrArg BitVec.toNat hrow
  rwa [BitVec.toNat_and, BitVec.toNat_ofNat, BitVec.toNat_ofNat, Nat.mod_eq_of_lt hmask,
    Nat.mod_eq_of_lt hpattern] at hnat

/-- A word that matches a row has the row's bits wherever the mask is 1. -/
theorem field_of_row {w : CmdWord} {r : OpRow} (h : w.toNat &&& r.mask = r.pattern) (s n : Nat)
    (hmask : (BitVec.ofNat 24 r.mask).extractLsb' s n = BitVec.allOnes n) :
    w.extractLsb' s n = (BitVec.ofNat 24 r.pattern).extractLsb' s n := by
  rw [← h, BitVec.ofNat_and, BitVec.extractLsb'_and, hmask, BitVec.and_allOnes, BitVec.ofNat_toNat,
    BitVec.setWidth_eq]

/-- A word that matches a row of the table has the fields of a command. -/
theorem exists_cmdFields_of_row {w : CmdWord} {r : OpRow} (hr : r ∈ cmdRows) (h : w.toNat &&& r.mask = r.pattern) :
    ∃ i, CmdFields w i := by
  have hfield := field_of_row h
  simp only [cmdRows, List.mem_cons, List.not_mem_nil, or_false] at hr
  rcases hr with rfl | rfl | rfl | rfl | rfl | rfl | rfl | rfl | rfl | rfl
  · exact ⟨.rdenc _, hfield 20 4 (by decide), hfield 1 19 (by decide), rfl⟩
  · exact ⟨.rdbtn, hfield 20 4 (by decide), hfield 0 20 (by decide)⟩
  · exact ⟨.caldac0 _, hfield 20 4 (by decide), hfield 17 3 (by decide), hfield 16 1 (by decide), rfl⟩
  · exact ⟨.caldac1 _, hfield 20 4 (by decide), hfield 17 3 (by decide), hfield 16 1 (by decide), rfl⟩
  · exact ⟨.caladc0 _, hfield 20 4 (by decide), hfield 14 6 (by decide), hfield 12 2 (by decide), rfl⟩
  · exact ⟨.caladc1 _, hfield 20 4 (by decide), hfield 14 6 (by decide), hfield 12 2 (by decide), rfl⟩
  · exact ⟨.caladc2 _, hfield 20 4 (by decide), hfield 14 6 (by decide), hfield 12 2 (by decide), rfl⟩
  · exact ⟨.caladc3 _, hfield 20 4 (by decide), hfield 14 6 (by decide), hfield 12 2 (by decide), rfl⟩
  · exact ⟨.dacwr _ _ _ _, hfield 20 4 (by decide), hfield 16 4 (by decide), rfl, hfield 14 1 (by decide),
      extractLsb'_one_eq_ofBool w 13, extractLsb'_one_eq_ofBool w 12, rfl⟩
  · exact ⟨.adcrd _, hfield 20 4 (by decide), hfield 2 18 (by decide), rfl⟩

/-- Settles O51: a word that decodes is an encoding, so it matches its row; a word that matches a row has the fields
the decoder reads. -/
theorem commandDecodesIffItMatchesARow : Obligations.CommandDecodesIffItMatchesARow := by
  intro w
  constructor
  · rintro ⟨i, hdec⟩
    have henc := decodeCmd_eq_ok_iff.1 hdec
    exact ⟨opRow i, opRow_mem_cmdRows henc, row_of_encode henc⟩
  · rintro ⟨r, hr, hrow⟩
    obtain ⟨i, hfields⟩ := exists_cmdFields_of_row hr hrow
    exact ⟨i, decodeCmd_of_cmdFields hfields⟩

/-- Settles O48, by evaluation of the decoder on the ten words. -/
theorem writtenWordsDecode : Obligations.WrittenWordsDecode := by
  refine ⟨?_, ?_, ?_, ?_, ?_, ?_, ?_, ?_, ?_, ?_⟩ <;> decide

end Sys2Proof
end

section
/-! SUPPORT. The text form (30_encoding.md R53; log entry 18): an operand in range is the number of the operand it
stands for, so a well-formed line and the text of its instruction are the same line. -/

namespace Sys2Proof

/-! ### Operands in range -/

theorem assemble_eq_some_iff {l : AsmLine} {i : Instr} :
    assemble l = some i ↔ l.wellFormed = true ∧ l.place = i := by
  simp [assemble]

theorem asmBit_toNat (b : Bool) : asmBit b.toNat = b := by
  cases b with
  | false | true => rfl

theorem toNat_asmBit {n : Nat} (h : wfBit n = true) : (asmBit n).toNat = n := by
  have hn : n < 2 := by simpa [wfBit] using h
  obtain rfl | rfl : n = 0 ∨ n = 1 := by omega
  · rfl
  · rfl

theorem wfBit_toNat (b : Bool) : wfBit b.toNat = true := by
  cases b with
  | false | true => rfl

theorem wfTarget_toInt (t : Target) : wfTarget t.toInt = true := by
  have hlow := t.le_toInt
  have hhigh := t.toInt_lt
  simp only [wfTarget, Bool.and_eq_true, decide_eq_true_eq]
  omega

theorem toInt_ofInt_of_wfTarget {t : Int} (h : wfTarget t = true) : (BitVec.ofInt 16 t).toInt = t := by
  simp only [wfTarget, Bool.and_eq_true, decide_eq_true_eq] at h
  exact BitVec.toInt_ofInt_eq_self (by decide) (by omega) (by omega)

/-! ### Lines and instructions -/

/-- The text of an instruction has its operands in range. -/
theorem wellFormed_of_disassemble {i : Instr} {l : AsmLine} (h : disassemble i = some l) : l.wellFormed = true := by
  cases i with
  | dacFrame | adcFrame => cases h
  | rdbtn => cases h; rfl
  | tick => cases h; simp [AsmLine.wellFormed, wfBit_toNat]
  | caldac0 | caldac1 => cases h; simp [AsmLine.wellFormed, wfDacChan, wfTarget_toInt]
  | caladc0 raw | caladc1 raw | caladc2 raw | caladc3 raw =>
    cases h; simpa [AsmLine.wellFormed, wfAdcChan, wfCode] using raw.isLt
  | rdenc j => cases h; simpa [AsmLine.wellFormed, wfEncIdx] using j.isLt
  | dacwr c g e v =>
    cases h
    have hc : c.toNat < 2 := c.isLt
    have hv : v.toNat < 4096 := v.isLt
    simp [AsmLine.wellFormed, wfDacChan, wfCode, wfBit_toNat, hc, hv]
  | adcrd ch => cases h; simpa [AsmLine.wellFormed, wfAdcChan] using ch.isLt

/-- The text of an instruction stands for it. -/
theorem place_of_disassemble {i : Instr} {l : AsmLine} (h : disassemble i = some l) : l.place = i := by
  cases i with
  | dacFrame | adcFrame => cases h
  | tick | rdenc | rdbtn | caldac0 | caldac1 | caladc0 | caladc1 | caladc2 | caladc3 | dacwr | adcrd =>
    cases h
    simp [AsmLine.place, asmBit_toNat]

/-- A line with its operands in range is the text of what it stands for. -/
theorem disassemble_place {l : AsmLine} (h : l.wellFormed = true) : disassemble l.place = some l := by
  cases l with
  | rdbtn => rfl
  | tick n a0 b0 a1 b1 =>
    simp only [AsmLine.wellFormed, Bool.and_eq_true] at h
    obtain ⟨⟨⟨⟨hn, ha0⟩, hb0⟩, ha1⟩, hb1⟩ := h
    simp [AsmLine.place, disassemble, toNat_asmBit, hn, ha0, hb0, ha1, hb1]
  | rdenc i =>
    have hi : i < 2 := by simpa [AsmLine.wellFormed, wfEncIdx] using h
    simp [AsmLine.place, disassemble, Nat.mod_eq_of_lt hi]
  | caldac ch t =>
    simp only [AsmLine.wellFormed, Bool.and_eq_true] at h
    obtain ⟨hch, ht⟩ := h
    have hch : ch < 2 := by simpa [wfDacChan] using hch
    obtain rfl | rfl : ch = 0 ∨ ch = 1 := by omega
    · simp [AsmLine.place, disassemble, toInt_ofInt_of_wfTarget ht]
    · simp [AsmLine.place, disassemble, toInt_ofInt_of_wfTarget ht]
  | caladc ch raw =>
    simp only [AsmLine.wellFormed, Bool.and_eq_true] at h
    obtain ⟨hch, hraw⟩ := h
    have hch : ch < 4 := by simpa [wfAdcChan] using hch
    have hraw : raw < 4096 := by simpa [wfCode] using hraw
    obtain rfl | rfl | rfl | rfl : ch = 0 ∨ ch = 1 ∨ ch = 2 ∨ ch = 3 := by omega
    all_goals simp [AsmLine.place, disassemble, Nat.mod_eq_of_lt hraw]
  | dacwr ch g e v =>
    simp only [AsmLine.wellFormed, Bool.and_eq_true] at h
    obtain ⟨⟨⟨hch, hg⟩, he⟩, hv⟩ := h
    have hch : ch < 2 := by simpa [wfDacChan] using hch
    have hv : v < 4096 := by simpa [wfCode] using hv
    simp [AsmLine.place, disassemble, toNat_asmBit hg, toNat_asmBit he, Nat.mod_eq_of_lt hch, Nat.mod_eq_of_lt hv]
  | adcrd ch =>
    have hch : ch < 4 := by simpa [AsmLine.wellFormed, wfAdcChan] using h
    simp [AsmLine.place, disassemble, Nat.mod_eq_of_lt hch]

/-- Settles O52: a line assembles if its operands are in range, and then line and instruction determine each other. -/
theorem textFormAgrees : Obligations.TextFormAgrees := by
  refine ⟨fun l => ?_, fun i l h => ?_, fun l i h => ?_⟩
  · simp [assemble_eq_some_iff]
  · exact assemble_eq_some_iff.2 ⟨wellFormed_of_disassemble h, place_of_disassemble h⟩
  · obtain ⟨hwf, rfl⟩ := assemble_eq_some_iff.1 h
    exact disassemble_place hwf

end Sys2Proof
end

section
/-! SUPPORT. The wire invariant (10_state.md R20, R22; 30_encoding.md R49, R50): it speaks of the sequencer, of `txbuf`
and of the history only, and whatever is sent was built by EncDac or EncAdc or had been latched legally. -/

namespace Sys2Proof.Machine

/-! ### The two ways in which an operation keeps the invariant -/

/-- An operation that does not touch the wire keeps the wire invariant. -/
theorem State.WireInv.of_wire_eq {s t : State} (h : s.WireInv) (hseq : t.seq = s.seq) (htx : t.txbuf = s.txbuf)
    (hlog : t.spiLog = s.spiLog) : t.WireInv := by
  simpa [State.WireInv, State.latchLegal, hseq, htx, hlog] using h

/-- A whole transfer keeps it if its event is legal: afterwards nothing is latched. -/
theorem State.WireInv.of_sent {s t : State} {ev : SpiEvent} (h : s.WireInv) (hidle : t.seq = .idle)
    (hlog : t.spiLog = s.spiLog ++ [ev]) (hev : ev.legal) : t.WireInv := by
  obtain ⟨-, hsent⟩ := h
  constructor
  · simp [State.latchLegal, hidle, Seq.dev]
  · rw [hlog]
    intro e he
    rcases List.mem_append.1 he with hold | hnew
    · exact hsent e hold
    · rw [List.mem_singleton.1 hnew]
      exact hev

/-! ### What is sent is legal -/

/-- EncDac leaves bit 6 of Byte0 clear (R49, R62). -/
theorem encDac_bit6 (c : DacChan) (g e : Bool) (v : Code) : (encDac c g e v).1.getLsbD 6 = false := by
  simp only [encDac, BitVec.getLsbD_append]
  simp

/-- The rest of a transfer, if one is under way, sends the bytes that are latched (R20). -/
theorem runXfer_wireInv {s : State} (h : s.WireInv) : (runXfer s).WireInv := by
  obtain ⟨hlatch, -⟩ := id h
  rcases s with ⟨_, _, _, q, _⟩
  cases q with
  | idle => exact h
  | dacB0 | dacB1 => exact h.of_sent rfl rfl hlatch
  | adcB0 | adcB1 | adcB2 => exact h.of_sent rfl rfl hlatch

/-- Every operation keeps the wire invariant. -/
theorem exec_wireInv {i : Instr} {s t : State} (h : exec i s = .next t) (hs : s.WireInv) : t.WireInv := by
  cases i with
  | tick | rdbtn | caldac0 | caldac1 | caladc0 | caladc1 | caladc2 | caladc3 => cases h; exact hs
  | rdenc j =>
    cases h
    exact hs.of_wire_eq (by simp) (by simp [State.clearEncChanged]) (by simp)
  | dacwr c g e v | dacFrame c g e v => cases h; exact hs.of_sent rfl rfl (encDac_bit6 ..)
  | adcrd ch | adcFrame ch => cases h; exact hs.of_sent rfl rfl ⟨ch, rfl⟩

/-- Settles O44, by the case analysis of a step: a reset empties the history, and everything else a step does runs an
operation, sends what is latched, or leaves the wire alone. -/
theorem wireInvariantIsKept : Obligations.WireInvariantIsKept := by
  intro s t hs h
  cases stepCase_of_step h with
  | reset _ ht => rw [ht]; exact wireInvariantAtReset
  | tick v _ _ hexec => exact exec_wireInv hexec (hs.of_wire_eq (by simp) (by simp) (by simp))
  | frame d r i u _ _ _ _ _ hexec ht =>
    rw [ht]
    exact (exec_wireInv hexec hs).of_wire_eq (by simp) (by simp) (by simp)
  | rest d _ _ _ _ ht =>
    rw [ht]
    exact (runXfer_wireInv (s := endResponse s) hs).of_wire_eq (by simp) (by simp) (by simp)
  | quiet _ _ _ _ ht => rw [ht]; exact hs
  | command w i _ _ _ _ _ hexec => exact exec_wireInv hexec hs
  | reserved w e _ _ _ _ _ ht => rw [ht]; exact hs

end Sys2Proof.Machine
end

section
/-! SUPPORT. The step on a reserved word and on a placed word (30_encoding.md R48, R51; log entries 2, 9, 16), from the
rules of the step for each input and the claims on the decoder. -/

namespace Sys2Proof.Machine

/-! ### Reserved words -/

/-- An idle port ignores a reserved word and answers 0 (R51). -/
theorem step_of_reserved {s : State} {w : CmdWord} {e : DecodeError} (hrst : s.ports.rst = false)
    (htick : s.ports.tick = none) (hidle : s.seq = .idle) (hcmd : s.ports.cmd = some w)
    (hdec : decode (.cmd w) = .rejected e) : step s = .next (respond false 0 (popClock (endResponse s))) :=
  step_of_take_other (by simp [take, takeCommand, hrst, htick, hidle, hcmd, hdec, Seq.dev])

/-- A word that matches no row is rejected (R48, R51). -/
theorem decode_rejected_of_no_row {w : CmdWord} (h : ∀ r ∈ cmdRows, w.toNat &&& r.mask ≠ r.pattern) :
    ∃ e, decode (.cmd w) = .rejected e := by
  cases hdec : decode (.cmd w) with
  | ok i =>
    obtain ⟨r, hr, hrow⟩ := (commandDecodesIffItMatchesARow w).1 ⟨i, hdec⟩
    exact absurd hrow (h r hr)
  | rejected e => exact ⟨e, rfl⟩

/-- Settles O7: such a word is rejected, and `respond`, `popClock` and `endResponse` change nothing but response and
clocks. -/
theorem reservedWordsAreIgnored : Obligations.ReservedWordsAreIgnored := by
  intro s w hrst htick hready hcmd hrows
  obtain ⟨e, hdec⟩ := decode_rejected_of_no_row hrows
  exact step_of_reserved hrst htick (by simpa [State.cmdReady] using hready) hcmd hdec

/-! ### Placed words -/

/-- A placed DAC frame is the frame latched: its two bytes joined are the word. -/
theorem latchedFrame_placeWord_dacf (s : State) (f : BitVec 16) :
    latchedFrame (placeWord s (.dacf f)) = some (.dacf f) := by
  have hjoin : f.extractLsb' 8 8 ++ f.extractLsb' 0 8 = f := eq_of_whole_field (append_field rfl rfl)
  exact congrArg (fun x => some (RawWord.dacf x)) hjoin

/-- A placed ADC query is the frame latched: its three bytes joined are the word. -/
theorem latchedFrame_placeWord_adcf (s : State) (q : BitVec 24) :
    latchedFrame (placeWord s (.adcf q)) = some (.adcf q) := by
  have hjoin : q.extractLsb' 16 8 ++ q.extractLsb' 8 8 ++ q.extractLsb' 0 8 = q :=
    eq_of_whole_field (append_field (append_field rfl rfl) rfl)
  exact congrArg (fun x => some (RawWord.adcf x)) hjoin

/-- A placed word that decodes is the instruction the next step runs, whatever lines carry it (R48, R52). -/
theorem step_placeWord {r : RawWord} {i : Instr} (hdec : decode r = .ok i) (s : State) :
    ∃ (u : State) (d : Option Dev), step (placeWord s r) = afterNext (completeIf d) (exec i u) ∧
      SameControl s u ∧ u.spiLog = s.spiLog ∧ u.rsp = none ∧
      u.clocks = (if d = none then s.clocks else Clock.quiet :: s.clocks) := by
  cases r with
  | tickv v =>
    cases hdec
    exact ⟨popClock (endResponse (placeWord s (.tickv v))), none, step_of_take_instr rfl, ⟨rfl, rfl, rfl⟩, rfl, rfl,
      rfl⟩
  | cmd w =>
    have htake : take (endResponse (placeWord s (.cmd w))) =
        .instr i (popClock (endResponse (placeWord s (.cmd w)))) none := by
      simp [take, takeCommand, State.ports, placeWord, hdec, Seq.dev]
    exact ⟨_, none, step_of_take_instr htake, ⟨rfl, rfl, rfl⟩, rfl, rfl, rfl⟩
  | dacf f =>
    have hstep := step_of_latchedFrame (s := placeWord s (.dacf f)) rfl rfl rfl (latchedFrame_placeWord_dacf s f) hdec
    exact ⟨_, some .dac, hstep, ⟨rfl, rfl, rfl⟩, rfl, rfl, rfl⟩
  | adcf q =>
    have hstep := step_of_latchedFrame (s := placeWord s (.adcf q)) rfl rfl rfl (latchedFrame_placeWord_adcf s q) hdec
    exact ⟨_, some .adc, hstep, ⟨rfl, rfl, rfl⟩, rfl, rfl, rfl⟩

/-- Settles O10: the encoding of an instruction decodes to it, so it is what the placed word runs. -/
theorem placedInstructionRuns : Obligations.PlacedInstructionRuns :=
  fun i s => step_placeWord (decodeOfEncode i) s

end Sys2Proof.Machine
end

section
/-! SUPPORT. What each command answers (30_encoding.md R44), and the pseudo-operations as sequences of commands
(30_encoding.md R54). -/

namespace Sys2Proof.Machine

/-! ### The response of a command -/

/-- Every operation but a tick, the two reads and the two wire frames answers with flag 0 (R44). -/
theorem exec_answers_flag_zero {i : Instr} {w : CmdWord} (s : State) (hcmd : encode i = .cmd w)
    (hrdenc : ∀ k, i ≠ .rdenc k) (hrdbtn : i ≠ .rdbtn) :
    ∃ (t : State) (data : BitVec 16), exec i s = .next t ∧ t.rsp = some (rspWord false data) := by
  cases i with
  | tick | dacFrame | adcFrame => cases hcmd
  | rdenc k => exact absurd rfl (hrdenc k)
  | rdbtn => exact absurd rfl hrdbtn
  | caldac0 | caldac1 | caladc0 | caladc1 | caladc2 | caladc3 | dacwr | adcrd => exact ⟨_, _, rfl, rfl⟩

/-- Settles O21, by the response each command gives. -/
theorem onlyTheReadsSetTheResponseFlag : Obligations.OnlyTheReadsSetTheResponseFlag := by
  intro i w s hcmd hrdenc hrdbtn
  obtain ⟨t, data, hexec, hrsp⟩ := exec_answers_flag_zero s hcmd hrdenc hrdbtn
  exact ⟨t, _, hexec, hrsp, rspWord_flag false data⟩

/-- The code in a response is the code that was answered (R44). -/
theorem rspCode_rspWord (f : Bool) (v : Code) : rspCode (rspWord f (v.setWidth 16)) = v := by
  rw [rspCode, rspWord, BitVec.extractLsb'_append_eq_of_add_le (by decide),
    BitVec.extractLsb'_setWidth_of_le (by decide), BitVec.extractLsb'_eq_self]

/-! ### DACSET -/

/-- The calibrated code of a target for a DAC channel (R67, R68). -/
def dacCode (ch : DacChan) (t : Target) : Code := if ch = 0 then dac0Code t else dac1Code t

theorem exec_caldac (ch : DacChan) (t : Target) (s : State) :
    exec (caldac ch t) s = .next (respond false ((dacCode ch t).setWidth 16) s) := by
  obtain rfl | rfl := encIdx_cases ch
  · rfl
  · rfl

/-- DACWR gates the channel enable, sends one frame and answers 0 (R64, R80). -/
theorem exec_dacwr (c : DacChan) (g e : Bool) (v : Code) (s : State) :
    exec (.dacwr c g e v) s = .next (complete .dac (spiXferDac (encDac c g (e && s.btn.enabled) v) s)) := rfl

/-- The DAC reads back what EncDac wrote (R62, R63). -/
theorem decDac_encDac (c : DacChan) (g e : Bool) (v : Code) :
    decDac (encDac c g e v).1 (encDac c g e v).2 = ⟨c, g, e, v⟩ := by
  have hv : v.extractLsb' 8 4 ++ v.extractLsb' 0 8 = v := eq_of_whole_field (append_field rfl rfl)
  simp (disch := decide) only [decDac, encDac, BitVec.getLsbD_append, BitVec.extractLsb'_append_eq_of_le,
    BitVec.extractLsb'_append_eq_of_add_le]
  simp [BitVec.extractLsb'_eq_self, hv]

/-- The DAC's view after a frame for its channel is that frame (R22, R63). -/
theorem dacView_append_encDac (log : List SpiEvent) (c : DacChan) (g e : Bool) (v : Code) :
    dacView (log ++ [.dacFrame (encDac c g e v).1 (encDac c g e v).2]) c = some ⟨c, g, e, v⟩ := by
  rw [dacView_append_dacFrame, decDac_encDac, if_pos rfl]

/-- Settles O41: the second command sends the code of the first one's response, and the DAC reads the frame back. -/
theorem dacsetProgramsTheCalibratedCode : Obligations.DacsetProgramsTheCalibratedCode := by
  intro ch t g e s
  refine ⟨_, _, _, exec_caldac ch t s, respond_rsp .., exec_dacwr .., ?_⟩
  rw [complete_spiLog, spiXferDac_eq, rspCode_rspWord]
  exact dacView_append_encDac ..

/-! ### ADCMV -/

/-- The millivolts of a sample for an ADC channel (R75, R76). -/
def adcMv (ch : AdcChan) (raw : Code) : Millivolts := if ch = 1 then adcTerminalMv raw else adcPinMv raw

theorem adcChan_cases (ch : AdcChan) : ch = 0 ∨ ch = 1 ∨ ch = 2 ∨ ch = 3 := by
  revert ch; decide

theorem exec_caladc (ch : AdcChan) (raw : Code) (s : State) :
    exec (caladc ch raw) s = .next (respond false ((adcMv ch raw).setWidth 16) s) := by
  obtain rfl | rfl | rfl | rfl := adcChan_cases ch
  · rfl
  · rfl
  · rfl
  · rfl

/-- CALADC1 as a number: the product fits 14 bits, so nothing is lost (R76). -/
theorem adcTerminalMv_toNat (raw : Code) : (adcTerminalMv raw).toNat = raw.toNat * 265 / 100 := by
  have hraw : raw.toNat < 4096 := raw.isLt
  have hquot : tdiv ((raw.toNat : Int) * Config.ka1ScaleNum) Config.ka1ScaleDen =
      ((raw.toNat * 265 / 100 : Nat) : Int) := (Int.ofNat_tdiv (raw.toNat * 265) 100).symm
  rw [adcTerminalMv, hquot, BitVec.ofInt_natCast, BitVec.toNat_ofNat, Nat.mod_eq_of_lt (by omega)]

theorem setWidth_adcMv (ch : AdcChan) (raw : Code) :
    (adcMv ch raw).setWidth 16 = BitVec.ofNat 16 (if ch = 1 then raw.toNat * 265 / 100 else raw.toNat) := by
  rw [← BitVec.ofNat_toNat, adcMv]
  split
  · rw [adcTerminalMv_toNat]
  · rw [adcPinMv, BitVec.toNat_setWidth_of_le (by decide)]

/-- The second byte of a query as a number (R71). -/
theorem toNat_queryByte (ch : AdcChan) : (ch ++ 0#6).toNat = ch.toNat * 64 := by
  rw [BitVec.toNat_append]
  simp [Nat.shiftLeft_eq]

/-- Settles O42: the second command converts the sample of the first one's response, which is that of the bytes
received. -/
theorem adcmvConvertsTheSampleItTook : Obligations.AdcmvConvertsTheSampleItTook := by
  intro ch s
  refine ⟨_, _, _, ch ++ 0#6, _, _, _, _, exec_adcrd ch s, respond_rsp .., exec_caladc .., toNat_queryByte ch,
    rfl, rfl, rfl, rfl, rfl, rfl, ?_⟩
  rw [respond_rsp, rspCode_rspWord, setWidth_adcMv, decAdc_toNat]
  rfl

/-! ### POLL -/

/-- Settles O43: each read answers its word as it finds it and clears its own flag, so the later ones find theirs as at
the start. -/
theorem pollReportsAllThreeWords : Obligations.PollReportsAllThreeWords := by
  intro s
  refine ⟨_, _, _, _, _, _, rfl, exec_rdenc 0 s, exec_rdenc 1 _, exec_rdbtn _, rfl, rfl, rfl, fun i => ?_, rfl, ?_⟩
  · obtain rfl | rfl := encIdx_cases i
    · rfl
    · rfl
  · exact ⟨rfl, rfl, rfl, rfl⟩

end Sys2Proof.Machine
end

section
/-! SUPPORT. The cases of BTN.STEP and ENC.STEP as equations (40_input_capture.md R56, R58), and from them the claims on
one tick (40_input_capture.md R55) and on the positions over one step (40_input_capture.md R59). -/

namespace Sys2Proof.Machine

/-! ### BTN.STEP -/

theorem btnStep_pressed (b : Button) : btnStep false b = { b with cnt := satInc8 b.cnt } := rfl

/-- A release after more than three samples toggles (R56). -/
theorem btnStep_released_of_long {b : Button} (h : 3 < b.cnt.toNat) : btnStep true b = ⟨0, !b.enabled, true⟩ := by
  have hpos : 0 < b.cnt.toNat := by omega
  simp [btnStep, Config.debounceThreshold, Button.raiseChanged, h, hpos]

/-- A release after at most three samples only ends the count, which may be 0 already (R56). -/
theorem btnStep_released_of_short {b : Button} (h : b.cnt.toNat ≤ 3) :
    btnStep true b = ⟨0, b.enabled, b.changed⟩ := by
  have hshort : ¬ Config.debounceThreshold < b.cnt.toNat := Nat.not_lt.2 h
  by_cases hpos : 0 < b.cnt.toNat
  · simp [btnStep, hpos, hshort]
  · have hzero : b.cnt = 0 := BitVec.eq_of_toNat_eq (by simpa using hpos)
    simp [btnStep, hpos, ← hzero]

/-- BTN.STEP never clears the flag (R18, R55). -/
theorem btnStep_changed_of_changed {n : Bool} {b : Button} (h : b.changed = true) : (btnStep n b).changed = true := by
  rcases btnStep_cases n b with hset | ⟨-, hkeep⟩
  · exact hset
  · exact hkeep.trans h

/-! ### ENC.STEP -/

/-- The last level is the one sampled, edge or not (R58). -/
theorem encStep_lastA (a b : Bool) (e : Encoder) : (encStep a b e).lastA = a := by
  unfold encStep
  split
  · rfl
  · rfl

/-- A rising edge of A counts in the direction of B and sets the flag (R58). -/
theorem encStep_of_edge {e : Encoder} (h : e.lastA = false) (b : Bool) :
    encStep true b e = ⟨wrap16 (e.pos.toInt + (if b then -1 else 1)), true, true⟩ := by
  cases b with
  | false | true => simp [encStep, Encoder.raiseChanged, h, Int.sub_eq_add_neg]

/-- Without a rising edge of A only the last level is written (R58). -/
theorem encStep_of_no_edge {a : Bool} {e : Encoder} (h : ¬ (e.lastA = false ∧ a = true)) (b : Bool) :
    encStep a b e = { e with lastA := a } := if_neg h

/-- ENC.STEP never clears the flag (R18, R55). -/
theorem encStep_changed_of_changed {a b : Bool} {e : Encoder} (h : e.changed = true) :
    (encStep a b e).changed = true := by
  rcases encStep_cases a b e with hset | ⟨-, hkeep⟩
  · exact hset
  · exact hkeep.trans h

/-- `wrap_16` of a sum with a position is the sum of 16-bit words (R10, R59). -/
theorem wrap16_toInt_add (p : Pos) (d : Int) : wrap16 (p.toInt + d) = p + BitVec.ofInt 16 d := by
  rw [wrap16, BitVec.ofInt_add, BitVec.ofInt_toInt]

theorem encStep_pos_of_edge {e : Encoder} (h : e.lastA = false) (b : Bool) :
    (encStep true b e).pos = e.pos + (if b then -1 else 1) := by
  rw [encStep_of_edge h, wrap16_toInt_add]
  cases b with
  | false | true => rfl

/-- The position moves exactly on a rising edge of A: one count is never 0 modulo 2^16 (R59). -/
theorem encStep_pos_ne_iff (a b : Bool) (e : Encoder) :
    (encStep a b e).pos ≠ e.pos ↔ e.lastA = false ∧ a = true := by
  constructor
  · intro hpos
    by_contra hedge
    rw [encStep_of_no_edge hedge] at hpos
    exact hpos rfl
  · rintro ⟨hlow, rfl⟩
    rw [encStep_pos_of_edge hlow, ne_eq, BitVec.add_right_eq_self]
    cases b with
    | false | true => decide

/-! ### TICK -/

theorem exec_tick (n a0 b0 a1 b1 : Bool) (s : State) :
    exec (.tick n a0 b0 a1 b1) s =
      .next { s with btn := btnStep n s.btn, enc0 := encStep a0 b0 s.enc0, enc1 := encStep a1 b1 s.enc1 } := rfl

/-- A tick runs ENC.STEP on each encoder with that encoder's levels (R55). -/
theorem exec_tick_enc {n a0 b0 a1 b1 : Bool} {s t : State} (h : exec (.tick n a0 b0 a1 b1) s = .next t)
    (i : EncIdx) : t.enc i = encStep (if i = 0 then a0 else a1) (if i = 0 then b0 else b1) (s.enc i) := by
  cases h
  obtain rfl | rfl := encIdx_cases i
  · rfl
  · rfl

/-- Settles O11, by the three equations of BTN.STEP. -/
theorem tickDebouncesTheButton : Obligations.TickDebouncesTheButton := by
  intro n a0 b0 a1 b1 s
  refine ⟨_, exec_tick n a0 b0 a1 b1 s, ?_, ?_, ?_⟩
  · rintro rfl
    exact ⟨satInc8_toNat s.btn.cnt, rfl, rfl⟩
  · rintro rfl hlong
    exact btnStep_released_of_long hlong
  · rintro rfl hshort
    exact btnStep_released_of_short hshort

/-- Settles O12, by the two equations of ENC.STEP. -/
theorem tickCountsRisingEdges : Obligations.TickCountsRisingEdges := by
  intro n a0 b0 a1 b1 s
  refine ⟨_, exec_tick n a0 b0 a1 b1 s, fun i a b ha hb => ?_⟩
  rw [exec_tick_enc (exec_tick n a0 b0 a1 b1 s) i, ← ha, ← hb]
  refine ⟨encStep_lastA a b _, ?_, fun hno => ?_⟩
  · rintro ⟨hlow, rfl⟩
    rw [encStep_of_edge hlow]
    exact ⟨rfl, BitVec.toInt_ofInt _⟩
  · rw [encStep_of_no_edge hno]
    exact ⟨rfl, rfl⟩

/-- Settles O13: the rest of the state by the rule of TICK, the flags by those of its sub-steps, and each pin is a
one-to-one function of `enabled`. -/
theorem tickFrame : Obligations.TickFrame := by
  intro n a0 b0 a1 b1 s
  refine ⟨_, exec_tick n a0 b0 a1 b1 s, ⟨rfl, rfl, rfl, rfl⟩, ⟨rfl, rfl, rfl⟩, rfl, btnStep_changed_of_changed,
    fun i hset => ?_, ?_, ?_⟩
  · rw [exec_tick_enc (exec_tick n a0 b0 a1 b1 s) i]
    exact encStep_changed_of_changed hset
  · simp [State.ledDis]
  · simp [regEn_eq]

/-! ### The positions over one step -/

/-- Settles O15: a step that takes no tick leaves the position, and one that takes a tick runs ENC.STEP. -/
theorem positionMovesOnlyOnRisingEdges : Obligations.PositionMovesOnlyOnRisingEdges := by
  intro s t i hrst h
  rcases step_enc_cases hrst h i with ⟨v, htick, heq⟩ | ⟨htick, heq⟩ | ⟨htick, -, heq⟩
  · rw [heq, tickEnc, encStep_pos_ne_iff, htick]
    refine ⟨by simp, ?_⟩
    rintro _ ⟨⟩ hlow hhigh
    rw [hhigh]
    exact encStep_pos_of_edge hlow _
  · simp [heq, htick]
  · simp [heq, htick]

end Sys2Proof.Machine
end

section
/-! SUPPORT. A run of ticks alone acts on the button as BTN.STEP does, sample by sample, and from that the button
contract (40_input_capture.md R57). -/

namespace Sys2Proof.Machine

/-- What the samples of a run of ticks make of the button (R56). -/
def tickBtns (vs : List TickVec) (b : Button) : Button := vs.foldl (fun b v => tickBtn v b) b

theorem tickBtns_append_singleton (vs : List TickVec) (v : TickVec) (b : Button) :
    tickBtns (vs ++ [v]) b = tickBtn v (tickBtns vs b) := by
  simp [tickBtns]

/-- While the button is pressed every sample counts, up to 255, and nothing else of the button changes (R56, R57). -/
theorem tickBtns_pressed {vs : List TickVec} (h : ∀ x ∈ vs, x.getLsbD 4 = false) (b : Button) :
    (tickBtns vs b).cnt.toNat = min (b.cnt.toNat + vs.length) 255 ∧ (tickBtns vs b).enabled = b.enabled ∧
      (tickBtns vs b).changed = b.changed := by
  induction vs generalizing b with
  | nil =>
    have hle : b.cnt.toNat ≤ 255 := Nat.le_of_lt_succ b.cnt.isLt
    exact ⟨(Nat.min_eq_left hle).symm, rfl, rfl⟩
  | cons v vs ih =>
    obtain ⟨hv, hvs⟩ := List.forall_mem_cons.1 h
    have hstep : tickBtns (v :: vs) b = tickBtns vs { b with cnt := satInc8 b.cnt } := by
      rw [← btnStep_pressed, ← hv]
      rfl
    obtain ⟨hcnt, hen, hch⟩ := ih hvs { b with cnt := satInc8 b.cnt }
    rw [hstep]
    refine ⟨?_, hen, hch⟩
    rw [hcnt, satInc8_toNat, List.length_cons]
    omega

/-- A run of ticks with no command beside them takes one tick a step, whose samples the button sees in order, and
leaves the SPI side as it was (R35, R55). -/
theorem core_run_tickClocks {s : State} {vs : List TickVec} {rest : List Clock}
    (h : s.clocks = vs.map tickClock ++ rest) :
    ∃ u, Sys2Proof.core.run vs.length s = .next u ∧ u.btn = tickBtns vs s.btn ∧ u.clocks = rest ∧ SameWire s u := by
  induction vs generalizing s with
  | nil => exact ⟨s, rfl, rfl, h, rfl, rfl, rfl, rfl⟩
  | cons v vs ih =>
    obtain ⟨k, hk⟩ := exec_next (decodeTick v) s
    obtain ⟨u, hrun, hbtn, hclocks, hwire⟩ :=
      ih (s := .withControl k (endResponse { s with clocks := vs.map tickClock ++ rest })) rfl
    have hkbtn : k.btn = tickBtn v s.btn := exec_decodeTick_btn hk
    refine ⟨u, (core_run_succ (step_of_tickClock h hk) vs.length).trans hrun, ?_, hclocks, hwire⟩
    exact hbtn.trans (congrArg (tickBtns vs) hkbtn)

/-- Settles O14: the count at the release is min(k, 255), which is above 3 exactly when k is. -/
theorem debounceContract : Obligations.DebounceContract := by
  intro s vs v rest hcnt hpressed hreleased hclocks
  obtain ⟨hadd, hen, hch⟩ := tickBtns_pressed hpressed s.btn
  have hcount : (tickBtns vs s.btn).cnt.toNat = min vs.length 255 := by simpa [hcnt] using hadd
  obtain ⟨u, hu, hubtn, -⟩ :=
    core_run_tickClocks (vs := vs) (rest := tickClock v :: rest) (hclocks.trans (by simp))
  obtain ⟨t, ht, htbtn, hrest, hwire⟩ := core_run_tickClocks hclocks
  rw [List.length_append, List.length_singleton] at ht
  rw [tickBtns_append_singleton, tickBtn, hreleased] at htbtn
  refine ⟨⟨u, hu, by rw [hubtn, hcount], by rw [hubtn, hen]⟩, t, ht, ?_⟩
  by_cases hlong : 4 ≤ vs.length
  · rw [btnStep_released_of_long (by omega)] at htbtn
    simp [htbtn, hlong, hen, hrest, hwire]
  · rw [btnStep_released_of_short (by omega)] at htbtn
    simp [htbtn, hlong, hen, hch, hrest, hwire]

end Sys2Proof.Machine
end

section
/-! SUPPORT. The Analog Output Driver: the calibrated codes as numbers (41_dac.md R66 to R69), the bytes of a DAC frame
as numbers and as fields (41_dac.md R62, R63), and the two operations that send one (41_dac.md R64, 20_memory.md
R31). -/

namespace Sys2Proof.Machine

/-! ### The calibrated codes -/

/-- The clamp of a CALDAC result as a number (R66). -/
theorem clampCode_toNat_eq_max_min (q : Int) : ((clampCode q).toNat : Int) = max 0 (min 4095 q) := by
  rw [clampCode_toNat, clamp]
  split
  · omega
  · split <;> omega

/-- A clamped quotient may be rounded down as well as toward zero: the two differ only below 0, where both clamp to 0
(R10, R66). -/
theorem clampCode_tdiv_toNat (a : Int) {b : Int} (hb : 0 < b) :
    ((clampCode (tdiv a b)).toNat : Int) = max 0 (min 4095 (a / b)) := by
  rw [clampCode_toNat_eq_max_min, tdiv]
  rcases Int.le_total 0 a with hpos | hneg
  · rw [Int.tdiv_eq_ediv_of_nonneg hpos]
  · have htdiv : a.tdiv b ≤ 0 := (Int.tdiv_le_tdiv hb hneg).trans_eq (Int.zero_tdiv b)
    have hediv : a / b ≤ 0 := Int.ediv_nonpos_of_nonpos_of_neg hneg hb
    omega

/-- CALDAC0's code as a number, the quotient rounded down (R67). -/
theorem dac0Code_toNat (t : Target) :
    ((dac0Code t).toNat : Int) = max 0 (min 4095 ((4530000 - 437 * t.toInt) / 1000)) :=
  clampCode_tdiv_toNat _ (by decide)

/-- CALDAC1's code as a number, the quotient rounded down (R68). -/
theorem dac1Code_toNat (t : Target) :
    ((dac1Code t).toNat : Int) = max 0 (min 4095 ((t.toInt - 1250) * 100 / 221)) :=
  clampCode_tdiv_toNat _ (by decide)

/-- A code is determined by its number. -/
theorem code_eq_iff {c v : Code} {z : Int} (hc : (c.toNat : Int) = z) : c = v ↔ z = v.toNat := by
  rw [← hc, Int.natCast_inj, BitVec.toNat_inj]

/-- A higher target never gives a higher code on channel 0 (R67, R69). -/
theorem dac0Code_antitone {t u : Target} (h : t.toInt ≤ u.toInt) : (dac0Code u).toNat ≤ (dac0Code t).toNat := by
  have ht := dac0Code_toNat t
  have hu := dac0Code_toNat u
  omega

/-- A higher target never gives a lower code on channel 1 (R68, R69). -/
theorem dac1Code_monotone {t u : Target} (h : t.toInt ≤ u.toInt) : (dac1Code t).toNat ≤ (dac1Code u).toNat := by
  have ht := dac1Code_toNat t
  have hu := dac1Code_toNat u
  omega

theorem exec_caldac0 (t : Target) (s : State) :
    exec (.caldac0 t) s = .next (respond false ((dac0Code t).setWidth 16) s) := rfl

theorem exec_caldac1 (t : Target) (s : State) :
    exec (.caldac1 t) s = .next (respond false ((dac1Code t).setWidth 16) s) := rfl

/-- A response is all that `respond` changes (R11, R44). -/
theorem onlyResponds_respond (f : Bool) (d : BitVec 16) (s : State) : OnlyResponds s (respond f d s) :=
  ⟨⟨rfl, rfl, rfl⟩, ⟨rfl, rfl, rfl, rfl⟩, rfl, rfl, rfl⟩

/-- Settles O25: CALDAC0 is a response, and its code is the clamped quotient. -/
theorem caldac0AnswersTheClampedCode : Obligations.Caldac0AnswersTheClampedCode := fun t s =>
  ⟨_, dac0Code t, exec_caldac0 t s, clampCode_toNat_eq_max_min _, respond_rsp .., onlyResponds_respond ..⟩

/-- Settles O27: CALDAC1 is a response, and its code is the clamped quotient. -/
theorem caldac1AnswersTheClampedCode : Obligations.Caldac1AnswersTheClampedCode := fun t s =>
  ⟨_, dac1Code t, exec_caldac1 t s, clampCode_toNat_eq_max_min _, respond_rsp .., onlyResponds_respond ..⟩

/-- Settles O26: each corner is the quotient rounded down at the end of its range. -/
theorem caldac0CornersAndDirection : Obligations.Caldac0CornersAndDirection := by
  refine ⟨fun t h => ?_, fun t h => ?_, fun t h => ?_, fun t h => ?_, fun t u h => dac0Code_antitone h,
    fun t s => ⟨_, exec_caldac0 t s, respond_rsp ..⟩⟩
  all_goals
    simp only [code_eq_iff (dac0Code_toNat _), BitVec.ofNat_eq_ofNat, BitVec.toNat_ofNat]
    omega

/-- Settles O28: each corner is the quotient rounded down at the end of its range. -/
theorem caldac1CornersAndDirection : Obligations.Caldac1CornersAndDirection := by
  refine ⟨fun t h => ?_, fun t h => ?_, fun t h => ?_, fun t h => ?_, fun t u h => dac1Code_monotone h,
    fun t s => ⟨_, exec_caldac1 t s, respond_rsp ..⟩⟩
  all_goals
    simp only [code_eq_iff (dac1Code_toNat _), BitVec.ofNat_eq_ofNat, BitVec.toNat_ofNat]
    omega

/-! ### The bytes of a DAC frame -/

/-- Joined words as a number: the upper one counts in units of the lower one's range. -/
theorem toNat_append_eq_mul_add {n m : Nat} (x : BitVec n) (y : BitVec m) :
    (x ++ y).toNat = x.toNat * 2 ^ m + y.toNat := by
  rw [BitVec.toNat_append, ← Nat.shiftLeft_add_eq_or_of_lt y.isLt, Nat.shiftLeft_eq]

theorem toNat_ofBool_eq_bit (b : Bool) : (BitVec.ofBool b).toNat = bit b := by
  cases b with
  | false | true => rfl

theorem bit_not (b : Bool) : bit (!b) = 1 - bit b := by
  cases b with
  | false | true => rfl

/-- Byte0 of a frame as a number (R62). -/
theorem encDac_fst_toNat (c : DacChan) (g e : Bool) (v : Code) :
    (encDac c g e v).1.toNat = c.toNat * 128 + (1 - bit g) * 32 + bit e * 16 + v.toNat / 256 := by
  have hnibble : (v.extractLsb' 8 4).toNat = v.toNat / 256 := by
    have hv : v.toNat < 4096 := v.isLt
    rw [BitVec.extractLsb'_toNat, Nat.shiftRight_eq_div_pow]
    omega
  simp only [encDac, toNat_append_eq_mul_add, toNat_ofBool_eq_bit, bit_not, hnibble, BitVec.toNat_ofNat]
  omega

/-- Byte1 of a frame as a number (R62). -/
theorem encDac_snd_toNat (c : DacChan) (g e : Bool) (v : Code) : (encDac c g e v).2.toNat = v.toNat % 256 :=
  BitVec.extractLsb'_toNat 0 8 v

/-- The channel DecDac reads, as a number (R63). -/
theorem decDac_c_toNat (b0 b1 : Byte) : (decDac b0 b1).c.toNat = b0.toNat / 128 := by
  have hb0 : b0.toNat < 256 := b0.isLt
  rw [decDac, BitVec.extractLsb'_toNat, Nat.shiftRight_eq_div_pow]
  omega

/-- The value DecDac reads, as a number (R63). -/
theorem decDac_v_toNat (b0 b1 : Byte) : (decDac b0 b1).v.toNat = b0.toNat % 16 * 256 + b1.toNat := by
  rw [decDac, toNat_append_eq_mul_add, BitVec.extractLsb'_toNat]
  rfl

/-- A field in which the mask has only ones is kept. -/
theorem extractLsb'_and_of_allOnes {n k l : Nat} {w m : BitVec n} (h : m.extractLsb' k l = BitVec.allOnes l) :
    (w &&& m).extractLsb' k l = w.extractLsb' k l := by
  rw [BitVec.extractLsb'_and, h, BitVec.and_allOnes]

/-- The mask 0xBF clears bit 6. -/
theorem and_0xBF_bit6 (b : Byte) : (b &&& 0xBF).extractLsb' 6 1 = 0#1 := by
  have hmask : (0xBF : Byte).extractLsb' 6 1 = 0#1 := by decide
  rw [BitVec.extractLsb'_and, hmask, BitVec.and_zero]

/-- EncDac of what DecDac reads clears bit 6 of Byte0 and gives every other bit back: the two bytes agree field by
field (R49, R63). -/
theorem encDac_decDac (b0 b1 : Byte) :
    encDac (decDac b0 b1).c (decDac b0 b1).g (decDac b0 b1).e (decDac b0 b1).v = (b0 &&& 0xBF, b1) := by
  have hchan : (b0 &&& 0xBF).extractLsb' 7 1 = b0.extractLsb' 7 1 := extractLsb'_and_of_allOnes (by decide)
  have hgain : (b0 &&& 0xBF).extractLsb' 5 1 = BitVec.ofBool (!!b0.getLsbD 5) := by
    rw [extractLsb'_and_of_allOnes (by decide), extractLsb'_one_eq_ofBool, Bool.not_not]
  have henable : (b0 &&& 0xBF).extractLsb' 4 1 = BitVec.ofBool (b0.getLsbD 4) := by
    rw [extractLsb'_and_of_allOnes (by decide), extractLsb'_one_eq_ofBool]
  have hhigh : (b0 &&& 0xBF).extractLsb' 0 4 = (b0.extractLsb' 0 4 ++ b1).extractLsb' 8 4 := by
    rw [extractLsb'_and_of_allOnes (by decide), BitVec.extractLsb'_append_eq_left]
  have hlow : (b0.extractLsb' 0 4 ++ b1).extractLsb' 0 8 = b1 := by
    rw [BitVec.extractLsb'_append_eq_of_add_le (by decide), BitVec.extractLsb'_eq_self]
  exact Prod.ext (eq_of_whole_field (append_field (append_field (append_field (append_field hchan
    (and_0xBF_bit6 b0)) hgain) henable) hhigh)) hlow

/-- What EncDac gives back of a frame is the frame exactly when bit 6 of Byte0 is 0 (R49, R63). -/
theorem and_0xBF_eq_self_iff (b : Byte) : b &&& 0xBF = b ↔ b.getLsbD 6 = false := by
  constructor
  · intro h
    have hclear := and_0xBF_bit6 b
    rw [h] at hclear
    exact extractLsb'_one_eq_iff.1 hclear
  · intro h6
    have hclear : b.extractLsb' 6 1 = 0#1 := extractLsb'_one_eq_iff.2 h6
    have htop : (b &&& 0xBF).extractLsb' 7 1 = b.extractLsb' 7 1 := extractLsb'_and_of_allOnes (by decide)
    have hlow : (b &&& 0xBF).extractLsb' 0 6 = b.extractLsb' 0 6 := extractLsb'_and_of_allOnes (by decide)
    calc b &&& 0xBF = b.extractLsb' 7 1 ++ 0#1 ++ b.extractLsb' 0 6 :=
          (eq_of_whole_field (append_field (append_field htop (and_0xBF_bit6 b)) hlow)).symm
      _ = b := eq_of_whole_field (append_field (append_field rfl hclear) rfl)

/-- Settles O36: DecDac as numbers and bits, and the two directions of the round trip. -/
theorem dacFrameRoundTrip : Obligations.DacFrameRoundTrip := by
  refine ⟨fun b0 b1 => ⟨decDac_c_toNat b0 b1, rfl, rfl, decDac_v_toNat b0 b1⟩, decDac_encDac,
    fun b0 b1 => ⟨encDac_decDac b0 b1, ?_⟩⟩
  rw [encDac_decDac, Prod.mk_inj, and_0xBF_eq_self_iff]
  exact and_iff_left rfl

/-! ### The operations that send a frame -/

theorem exec_dacFrame (c : DacChan) (g e : Bool) (v : Code) (s : State) :
    exec (.dacFrame c g e v) s = .next (spiXferDac (encDac c g e v) s) := rfl

/-- Settles O31: DACWR is the walk of the gated frame, whose bytes are those of EncDac, and then the response 0. -/
theorem dacwrSendsTheGatedFrame : Obligations.DacwrSendsTheGatedFrame := by
  intro c g e v s
  refine ⟨_, _, _, exec_dacwr c g e v s, encDac_fst_toNat .., encDac_snd_toNat c g (e && s.btn.enabled) v, ?_⟩
  rw [spiXferDac_eq]
  exact ⟨rfl, rfl, rfl, ⟨rfl, rfl, rfl⟩, ⟨rfl, rfl, rfl⟩, rfl, rfl⟩

/-- Settles O32: DAC.FRAME is the walk of the frame, whose bytes are those of EncDac. -/
theorem dacFrameGoesOnTheWire : Obligations.DacFrameGoesOnTheWire := by
  intro c g e v s
  refine ⟨_, _, _, exec_dacFrame c g e v s, encDac_fst_toNat .., encDac_snd_toNat c g e v, ?_⟩
  rw [spiXferDac_eq]
  exact ⟨rfl, rfl, rfl, ⟨rfl, rfl, rfl⟩, ⟨rfl, rfl, rfl⟩, rfl, rfl⟩

end Sys2Proof.Machine
end

section
/-! SUPPORT. The Analog Input Sampler: the CALADC results as numbers (42_adc.md R75, R76), the sample in the received
bytes (42_adc.md R72), and the two operations that send a query (42_adc.md R71, R73, R74). -/

namespace Sys2Proof.Machine

/-! ### The millivolts of a sample -/

/-- CALADC answers the millivolts of its channel as a number (R75, R76). -/
theorem exec_caladc_ofNat (ch : AdcChan) (raw : Code) (s : State) :
    exec (caladc ch raw) s =
      .next (respond false (BitVec.ofNat 16 (if ch = 1 then raw.toNat * 265 / 100 else raw.toNat)) s) := by
  rw [exec_caladc, setWidth_adcMv]

/-- Settles O29: CALADC0, CALADC2 and CALADC3 are the channels of CALADC that do not scale. -/
theorem caladcPinChannelsAreIdentity : Obligations.CaladcPinChannelsAreIdentity := by
  intro raw s i hi
  obtain ⟨ch, hch, rfl⟩ : ∃ ch, ch ≠ 1 ∧ i = caladc ch raw := by
    simp only [List.mem_cons, List.not_mem_nil, or_false] at hi
    obtain rfl | rfl | rfl := hi
    · exact ⟨0, by decide, rfl⟩
    · exact ⟨2, by decide, rfl⟩
    · exact ⟨3, by decide, rfl⟩
  refine ⟨_, exec_caladc_ofNat ch raw s, ?_, onlyResponds_respond ..⟩
  rw [respond_rsp, if_neg hch]

/-- Settles O30: CALADC1 is the channel of CALADC that scales, and the largest sample is 4095. -/
theorem caladc1ScalesByTwoPointSixFive : Obligations.Caladc1ScalesByTwoPointSixFive := by
  intro raw s
  have hraw : raw.toNat < 4096 := raw.isLt
  exact ⟨_, _, exec_caladc_ofNat 1 raw s, rfl, by omega, respond_rsp .., onlyResponds_respond ..⟩

/-! ### The sample in the received bytes -/

/-- Settles O37, by `decAdc_toNat`. -/
theorem adcResponseDecoding : Obligations.AdcResponseDecoding := decAdc_toNat

/-- The response of ADCRD is the sample in the bytes received, as a number (R72, R74). -/
theorem complete_adc_eq_respond (s : State) :
    complete .adc s =
      respond false (BitVec.ofNat 16 (s.rxbuf.b1.toNat % 16 * 256 + s.rxbuf.b2.toNat)) s := by
  rw [← decAdc_toNat, BitVec.ofNat_toNat]
  rfl

/-! ### The operations that send a query -/

theorem exec_adcFrame (ch : AdcChan) (s : State) :
    exec (.adcFrame ch) s = .next (spiXferAdc (encAdc ch) s) := rfl

/-- A transfer of three bytes uses up 24 levels of `spi_miso` (R32). -/
theorem spiXferAdc_miso (t : ByteBuf) (s : State) : (spiXferAdc t s).miso = s.miso.drop 24 := by
  rw [spiXferAdc_eq, List.drop_drop, List.drop_drop]

/-- Levels that begin with the bits of three bytes, bit 7 first, make an ADC transfer receive these bytes (R27, R73). -/
theorem rxBytes_of_miso {s : State} {r0 r1 r2 : Byte} {rest : List Bool}
    (h : s.miso = bitsMsbFirst r0 ++ bitsMsbFirst r1 ++ bitsMsbFirst r2 ++ rest) : rxBytes s = ⟨r0, r1, r2⟩ := by
  rw [List.append_assoc, List.append_assoc] at h
  have h1 := rxAdvance_miso_of_append h rfl
  have h2 := rxAdvance_miso_of_append h1 rfl
  rw [rxBytes, rxByte_of_miso h rfl, rxByte_of_miso h1 rfl, rxByte_of_miso h2 rfl, sampledBitsGiveTheByte,
    sampledBitsGiveTheByte, sampledBitsGiveTheByte]

/-- Settles O35: ADC.FRAME is the walk of the query. -/
theorem adcFrameGoesOnTheWire : Obligations.AdcFrameGoesOnTheWire := by
  intro ch s
  exact ⟨_, ch ++ 0#6, _, _, _, exec_adcFrame ch s, toNat_queryByte ch, rfl, rfl, rfl, rfl, rfl, rfl,
    ⟨rfl, rfl, rfl⟩, rfl, rfl, rfl, spiXferAdc_miso .., rfl⟩

/-- Settles O33: ADCRD is the walk of the query, and then the sample as its response. -/
theorem adcrdSamplesOneChannel : Obligations.AdcrdSamplesOneChannel := by
  intro ch s
  refine ⟨_, ch ++ 0#6, _, _, _, exec_adcrd ch s, toNat_queryByte ch, rfl, rfl, rfl, ?_⟩
  rw [complete_adc_eq_respond]
  exact ⟨rfl, rfl, rfl, ⟨rfl, rfl, rfl⟩, respond_clocks .., rfl, rfl, spiXferAdc_miso .., rfl⟩

/-- Settles O34: the transfer receives the bytes at the head of the input, and the rest of ADCRD follows them. -/
theorem adcAnswerMayBeAnyBytes : Obligations.AdcAnswerMayBeAnyBytes := by
  intro ch r0 r1 r2 rest s hmiso
  have hrx : rxBytes s = ⟨r0, r1, r2⟩ := rxBytes_of_miso hmiso
  have hrest : s.miso.drop 24 = rest := by
    rw [hmiso]
    rfl
  refine ⟨_, (encAdc ch).b0, (encAdc ch).b1, (encAdc ch).b2, exec_adcrd ch s, ?_⟩
  rw [complete_adc_eq_respond, respond_spiLog, respond_rxbuf, respond_miso, respond_rsp, spiXferAdc_miso, hrest,
    spiXferAdc_eq, hrx]
  exact ⟨rfl, rfl, rfl, rfl⟩

end Sys2Proof.Machine
end

section
/-! SUPPORT. The Output Enable Controller: when `enabled` changes over one step (43_output_enable.md R77), and the gate
on the frames DACWR sends (43_output_enable.md R80). -/

namespace Sys2Proof.Machine

/-! ### The transition of the enable state -/

/-- BTN.STEP toggles exactly on a release after more than three samples (R56, R77). -/
theorem btnStep_enabled_ne_iff (n : Bool) (b : Button) :
    (btnStep n b).enabled ≠ b.enabled ↔ n = true ∧ 3 < b.cnt.toNat := by
  cases n with
  | false => simp [btnStep_pressed]
  | true =>
    by_cases hlong : 3 < b.cnt.toNat
    · simp [btnStep_released_of_long hlong, hlong]
    · simp [btnStep_released_of_short (Nat.not_lt.1 hlong), hlong]

/-- `oe` is a one-to-one view of `enabled` (R16). -/
theorem oe_eq_iff (s t : State) : t.oe = s.oe ↔ t.btn.enabled = s.btn.enabled := by
  cases hs : s.btn.enabled with
  | false => rw [(oe_eq_disabled_iff s).2 hs, oe_eq_disabled_iff]
  | true => rw [(oe_eq_enabled_iff s).2 hs, oe_eq_enabled_iff]

/-- A reset is all that happens in its clock (R95). -/
theorem step_of_rst {s : State} (hrst : s.ports.rst = true) : step s = .next (hardReset s) :=
  step_of_take_reset (by simp [take, hrst])

@[simp] theorem hardReset_oe (s : State) : (hardReset s).oe = .DISABLED := rfl

/-- A step that is no reset toggles `enabled` exactly on a tick that samples a release with the count above 3: only a
tick runs BTN.STEP, and RDBTN clears no more than the flag (R77). -/
theorem step_enabled_ne_iff {s t : State} (hrst : s.ports.rst = false) (h : step s = .next t) :
    t.btn.enabled ≠ s.btn.enabled ↔
      ∃ v, s.ports.tick = some v ∧ v.getLsbD 4 = true ∧ 3 < s.btn.cnt.toNat := by
  rcases step_btn_cases hrst h with ⟨v, htick, heq⟩ | ⟨htick, heq⟩ | ⟨htick, -, heq⟩
  · rw [heq, tickBtn, btnStep_enabled_ne_iff]
    simp [htick]
  · simp [heq, htick]
  · simp [heq, htick]

/-- Settles O16: `oe` is a view of `enabled`, and `step_enabled_ne_iff` says when that changes. -/
theorem onlyAReleaseTogglesEnable : Obligations.OnlyAReleaseTogglesEnable := by
  intro s t h
  refine ⟨fun hrst => ?_, fun hrst => ?_⟩
  · rw [step_of_rst hrst] at h
    cases h
    exact hardReset_oe s
  · rw [ne_eq, oe_eq_iff]
    exact step_enabled_ne_iff hrst h

/-! ### The gate -/

/-- `t`'s history is `s`'s, followed by events none of which is a DAC frame with the channel enabled. -/
def LogExtendsOff (s t : State) : Prop := ∃ new, t.spiLog = s.spiLog ++ new ∧ ∀ ev ∈ new, ev.channelOff

theorem LogExtendsOff.of_eq {s t : State} (h : t.spiLog = s.spiLog) : LogExtendsOff s t :=
  ⟨[], by simp [h], nofun⟩

theorem LogExtendsOff.of_append {s t : State} {ev : SpiEvent} (h : t.spiLog = s.spiLog ++ [ev])
    (hoff : ev.channelOff) : LogExtendsOff s t :=
  ⟨[ev], h, by simpa using hoff⟩

/-- Bit 4 of Byte0 is the channel enable EncDac was given (R62). -/
theorem encDac_bit4 (c : DacChan) (g e : Bool) (v : Code) : (encDac c g e v).1.getLsbD 4 = e :=
  congrArg DacFields.e (decDac_encDac c g e v)

/-- A command run while DISABLED sends no DAC frame but DACWR's, whose channel enable the gate has cleared; the ungated
DAC.FRAME is no command (R52, R80). -/
theorem exec_command_logExtendsOff {w : CmdWord} {i : Instr} {s t : State} (hcmd : encode i = .cmd w)
    (hdis : s.btn.enabled = false) (h : exec i s = .next t) : LogExtendsOff s t := by
  cases i with
  | tick | dacFrame | adcFrame => cases hcmd
  | rdbtn | caldac0 | caldac1 | caladc0 | caladc1 | caladc2 | caladc3 => cases h; exact .of_eq rfl
  | rdenc j => cases h; exact .of_eq (by simp)
  | adcrd ch => cases h; exact .of_append rfl trivial
  | dacwr c g e v =>
    rw [exec_dacwr, hdis, Bool.and_false] at h
    cases h
    exact .of_append rfl (encDac_bit4 ..)

/-- Settles O38: with no transfer under way only an accepted command sends a frame, and DISABLED gates it. -/
theorem disabledFramesHaveTheChannelOff : Obligations.DisabledFramesHaveTheChannelOff := by
  intro s t hidle hrst hdis h
  change LogExtendsOff s t
  cases stepCase_of_step h with
  | reset hreset _ => rw [hrst] at hreset; cases hreset
  | tick v _ _ hexec =>
    obtain ⟨⟨-, -, -, hlog⟩, -⟩ := exec_decodeTick_frame hexec
    exact .of_eq (by simpa using hlog)
  | frame d _ _ _ _ _ hdev => exact absurd hidle (Seq.ne_idle_of_dev hdev)
  | rest d _ _ hdev => exact absurd hidle (Seq.ne_idle_of_dev hdev)
  | quiet _ _ _ _ ht => exact .of_eq (by simp [ht])
  | command w i _ _ _ _ hdec hexec =>
    exact exec_command_logExtendsOff (s := popClock (endResponse s)) (decodeCmd_eq_ok_iff.1 hdec) hdis hexec
  | reserved w e _ _ _ _ _ ht => exact .of_eq (by simp [ht])

end Sys2Proof.Machine
end

section
/-! SUPPORT. What the HOST can do to the Shared Control State (44_host_access.md R82 to R85): the frame and the answer
of each of the two reads, and the state elements that only a tick or a reset writes. -/

namespace Sys2Proof.Machine

/-! ### The response word as data and as a number -/

/-- The low 16 bits of a response are its data (R44). -/
theorem rspWord_setWidth (f : Bool) (d : BitVec 16) : (rspWord f d).setWidth 16 = d := by
  rw [rspWord, BitVec.setWidth_append_eq_right]

/-- Bit 16 of a response weighs 65536 (R44). -/
theorem rspWord_toNat (f : Bool) (d : BitVec 16) : (rspWord f d).toNat = 65536 * bit f + d.toNat := by
  have hflag : (BitVec.ofBool f).toNat = bit f := by cases f <;> rfl
  rw [rspWord, BitVec.toNat_append, hflag, ← Nat.shiftLeft_add_eq_or_of_lt d.isLt, Nat.shiftLeft_eq, Nat.mul_comm]

/-- The response to RDBTN as a number (R84). -/
theorem btnStatus_toNat (s : State) : s.btnStatus.toNat = 65536 * bit s.btn.changed + bit s.btn.enabled := by
  have hen : ((BitVec.ofBool s.btn.enabled).setWidth 16).toNat = bit s.btn.enabled := by
    cases s.btn.enabled <;> rfl
  rw [State.btnStatus, rspWord_toNat, hen]

/-! ### What the two reads leave unchanged -/

@[simp] theorem clearEncChanged_btn (i : EncIdx) (s : State) : (s.clearEncChanged i).btn = s.btn := setEnc_btn _ _ _

theorem clearEncChanged_enc_of_ne {i j : EncIdx} (h : j ≠ i) (s : State) : (s.clearEncChanged i).enc j = s.enc j :=
  setEnc_enc_of_ne i j h _ s

/-- Clearing an encoder's flag leaves the SPI side alone (R83). -/
theorem sameWire_clearEncChanged (i : EncIdx) (s : State) : SameWire s (s.clearEncChanged i) :=
  ⟨setEnc_seq .., setEnc_txbuf .., setEnc_rxbuf .., setEnc_spiLog ..⟩

theorem sameInputs_clearEncChanged (i : EncIdx) (s : State) : SameInputs s (s.clearEncChanged i) :=
  ⟨setEnc_clocks .., setEnc_miso .., setEnc_misoDrawn ..⟩

/-- Settles O18: the response is the status word as it stood, and `clearEncChanged` writes the one flag. -/
theorem rdencReadsAndClears : Obligations.RdencReadsAndClears := by
  intro i s
  refine ⟨_, exec_rdenc i s, respond_rsp .., rspWord_flag .., rspWord_setWidth .., ?_, fun j hj => ?_, ?_, ?_, ?_⟩
  · rw [respond_enc, clearEncChanged_enc]
  · rw [respond_enc, clearEncChanged_enc_of_ne hj]
  · rw [respond_btn, clearEncChanged_btn]
  · exact sameWire_clearEncChanged i s
  · exact sameInputs_clearEncChanged i s

/-- Settles O19: the response is the status word as it stood, and `clearBtnChanged` writes the one flag. -/
theorem rdbtnReadsAndClears : Obligations.RdbtnReadsAndClears := fun s =>
  ⟨_, exec_rdbtn s, respond_rsp .., btnStatus_toNat s, rfl, fun _ => rfl, ⟨rfl, rfl, rfl, rfl⟩, rfl, rfl, rfl⟩

/-! ### A step that runs a command -/

/-- Settles O4, by the rule for a command at an idle port. -/
theorem stepRunsTheDecodedCommand : Obligations.StepRunsTheDecodedCommand :=
  fun _ _ _ hrst htick hready hcmd hdec => step_of_command hrst htick (of_decide_eq_true hready) hcmd hdec

/-! ### What only a tick or a reset writes -/

/-- Without a tick or a reset an encoder stays as it is, but for a flag that may be cleared (R85). -/
theorem step_enc_of_no_tick {s t : State} (hrst : s.ports.rst = false) (htick : s.ports.tick = none)
    (h : step s = .next t) (i : EncIdx) : t.enc i = s.enc i ∨ t.enc i = { s.enc i with changed := false } := by
  rcases step_enc_cases hrst h i with ⟨v, hv, -⟩ | ⟨-, heq⟩ | ⟨-, -, heq⟩
  · rw [htick] at hv; cases hv
  · exact .inl heq
  · exact .inr heq

/-- Without a tick or a reset the button stays as it is, but for a flag that may be cleared (R85). -/
theorem step_btn_of_no_tick {s t : State} (hrst : s.ports.rst = false) (htick : s.ports.tick = none)
    (h : step s = .next t) : t.btn = s.btn ∨ t.btn = { s.btn with changed := false } := by
  rcases step_btn_cases hrst h with ⟨v, hv, -⟩ | ⟨-, heq⟩ | ⟨-, -, heq⟩
  · rw [htick] at hv; cases hv
  · exact .inl heq
  · exact .inr heq

/-- Settles O24: neither leaving an element alone nor clearing its flag writes its other fields or sets the flag. -/
theorem hostWritesNothingButFlagClears : Obligations.HostWritesNothingButFlagClears := by
  intro s t hrst htick h
  refine ⟨fun i => ?_, ?_⟩
  · rcases step_enc_of_no_tick hrst htick h i with heq | heq
    · rw [heq]; exact ⟨rfl, rfl, id⟩
    · rw [heq]; exact ⟨rfl, rfl, nofun⟩
  · rcases step_btn_of_no_tick hrst htick h with heq | heq
    · rw [heq]; exact ⟨rfl, rfl, id⟩
    · rw [heq]; exact ⟨rfl, rfl, nofun⟩

end Sys2Proof.Machine
end

section
/-! SUPPORT. Totality (60_exceptions.md R86): whatever the step takes, it ends in a next state. -/

namespace Sys2Proof.Machine

/-- A reset and an input outside the table end in a next state by themselves; an instruction does because its operation
completes, whatever command its end completes (R86). -/
theorem step_next (s : State) : ∃ t, step s = .next t := by
  cases htake : take (endResponse s) with
  | reset => exact ⟨_, step_of_take_reset htake⟩
  | instr i s' d =>
    obtain ⟨u, hexec⟩ := exec_next i s'
    exact ⟨completeIf d u, by rw [step_of_take_instr htake, hexec, afterNext_next]⟩
  | other s' => exact ⟨_, step_of_take_other htake⟩

/-- Settles O9: every operation completes, and so does every step, which runs at most one of them. -/
theorem everyOperationCompletes : Obligations.EveryOperationCompletes := ⟨exec_next, step_next⟩

end Sys2Proof.Machine
end

section
/-! SUPPORT. The claim on a clock of `rst` (70_reset_and_hazards.md R95). -/

namespace Sys2Proof.Machine

/-- Settles O2: a step with `rst` on the ports is `hardReset`, which is the reset state with the environment's inputs
kept, by definition. -/
theorem resetStepGivesResetState : Obligations.ResetStepGivesResetState :=
  fun s hrst => ⟨hardReset s, step_of_rst hrst, rfl⟩

end Sys2Proof.Machine
end
